-- ==== Sys2Proof/Word.lean ====
section
/-! DEFINITION. The word types of the block (00_scope R10: every number is unsigned). -/

namespace Sys2Proof

/-- `u8` (00_scope R10). -/
abbrev U8 := BitVec 8

/-- `u16`, the width of an SPI word (00_scope R8, R10). -/
abbrev U16 := BitVec 16

/-- `u32` (00_scope R10). -/
abbrev U32 := BitVec 32

/-- The payload of a latched device register (20_memory R60, R74). -/
abbrev Payload := BitVec 12

end Sys2Proof
end

