-- ==== Sys2Proof/Syntax.lean ====
section
/-! DEFINITION. The names of the hardware's parts and the instructions: the twelve host commands and the eight
internal acts that have a row in the opcode table (00_scope R3, 30_encoding R99, R105). -/

namespace Sys2Proof

/-- The two driver ICs, the source's `ChipId` (00_scope R18). -/
inductive IcId where
  | icA | icB
  deriving DecidableEq, Repr, Inhabited

/-- The four channels of one IC, the source's `ChannelId` (00_scope R18). -/
inductive ChannelId where
  | chA | chB | chC | chD
  deriving DecidableEq, Repr, Inhabited

/-- The eight logical valves, indices 0 to 7 (00_scope R8, 20_memory R60). -/
inductive ValveId where
  | v0 | v1 | v2 | v3 | v4 | v5 | v6 | v7
  deriving DecidableEq, Repr, Inhabited

/-- One thing per IC. -/
structure ByIc (α : Type) where
  icA : α
  icB : α
  deriving DecidableEq, Repr, Inhabited

/-- One thing per channel of an IC. -/
structure ByChannel (α : Type) where
  chA : α
  chB : α
  chC : α
  chD : α
  deriving DecidableEq, Repr, Inhabited

/-- One thing per valve: exactly the indices 0 to 7, no gaps (10_state R26, INV-COVER). -/
structure ByValve (α : Type) where
  v0 : α
  v1 : α
  v2 : α
  v3 : α
  v4 : α
  v5 : α
  v6 : α
  v7 : α
  deriving DecidableEq, Repr, Inhabited

/-- The commanded state of one H-bridge output, already validated: `current` is at most 7 by its type
(10_state R21). -/
structure ChannelField where
  decay : Bool
  current : BitVec 3
  phase : Bool
  enable : Bool
  deriving DecidableEq, Repr, Inhabited

/-- The all-zero field `{0,0,0,0}` (10_state R55). -/
abbrev ChannelField.zero : ChannelField := ⟨false, 0, false, false⟩

/-- The outcome of a procedure (10_state R36, 60_exceptions R231). -/
inductive Result where
  | ok | invalidParameter | transferFailed | partialCommit
  deriving DecidableEq, Repr, Inhabited

/-- The instructions: one constructor per row of the opcode table. The first twelve are the host commands (format
`CMD40`, 30_encoding R99), four getters among them (notes/assumptions/21.md on the five that 60_exceptions R243 counts); an
ignored operand has no argument here (R100). The other eight are internal acts run alone
(notes/assumptions/5.md): an SPI word sent to an IC, a codec result, a channel sub-field, a response frame. -/
inductive Instr where
  | init
  | setMode (code : U32)
  | togglePump
  | setCurrent (level : U32)
  | getCurrent
  | setPulseWidthMs (ms : U32)
  | getPulseWidthMs
  | getMode
  | getValveDirection (index : U32)
  | panicRecover
  | sleepDrivers
  | valveOverride (index : ValveId) (direction : Bool)
  | wordAb (ic : IcId) (b a : ChannelField)
  | wordCd (ic : IcId) (d c : ChannelField)
  | encodeChA (f : ChannelField)
  | encodeChB (f : ChannelField)
  | encodeChC (f : ChannelField)
  | encodeChD (f : ChannelField)
  | sub6 (f : ChannelField)
  | rsp40 (result : Result) (value : U32)
  deriving DecidableEq, Repr

end Sys2Proof
end

