-- ==== Sys2Proof/Config.lean ====
section
/-! DEFINITION. The configuration: the parameters the source names and gives no value for (00_scope R9), their
constraints, and the free value of a transfer's success (00_scope R13). -/

namespace Sys2Proof

/-- The names of manifold modes. The source gives fifteen and says the list goes on (42_presets R173); `other` stands
for a mode it does not name. -/
inductive Mode where
  | rest | zeroPumpOn | zeroPumpOff | spanCal | equilVent | deploy
  | purge1 | purge2 | purge3 | purge4 | purge5 | purge6 | purge7 | purge8 | pressurize
  | other (n : Nat)
  deriving DecidableEq, Repr, Inhabited

/-- The desired state of one valve, its three members stored raw as `u8` (10_state R25). -/
structure ValveTarget where
  direction : U8
  current : U8
  decay : U8
  deriving DecidableEq, Repr, Inhabited

/-- A named configuration: eight valve targets and the pump flag (10_state R25). -/
structure Preset where
  valve : ByValve ValveTarget
  pump : Bool
  deriving DecidableEq, Repr, Inhabited

/-- The valve target whose three members are 0. -/
abbrev ValveTarget.zero : ValveTarget := ⟨0, 0, 0⟩

/-- The preset of eight zero targets, pump off: what `table` and `mirror` hold before `init` (notes/assumptions/6.md). -/
abbrev Preset.zero : Preset :=
  ⟨⟨.zero, .zero, .zero, .zero, .zero, .zero, .zero, .zero⟩, false⟩

/-- One member of `MODES` with its `MODE_CODE`, its `PAIRED` and its `PRESET_DEFAULT` (00_scope R9). -/
structure ModeEntry where
  mode : Mode
  code : U32
  paired : Bool
  preset : Preset
  deriving DecidableEq, Repr, Inhabited

/-- `SPI_MODE` (00_scope R9). -/
structure SpiMode where
  cpol : Bool
  cpha : Bool
  deriving DecidableEq, Repr, Inhabited

/-- The pins of one IC's four lines, part of `PIN_ASSIGN` (00_scope R9). -/
structure LinePins where
  cs : Nat
  strobe : Nat
  nReset : Nat
  nSleep : Nat
  deriving DecidableEq, Repr, Inhabited

/-- `PIN_ASSIGN` (00_scope R9): ten pins, of which the rules name the lines of nine; `tenth` is the one they count and
name no line for (notes/assumptions/14.md). -/
structure PinAssign where
  lines : ByIc LinePins
  relay : Nat
  tenth : Nat
  deriving DecidableEq, Repr, Inhabited

/-- Every parameter of 00_scope R9; `RELAY_INIT` is 0 unless said otherwise (92_eei_decisions D16). -/
structure Config where
  modes : List ModeEntry
  valveMap : ByValve (IcId × ChannelId)
  strobeDelayMs : U32
  resetDelayMs : U32
  wakeupDelayMs : U32
  pulseWidthMinMs : U32
  pulseWidthDefaultMs : U32
  panicWidths : List U32
  panicCurrent : BitVec 3
  panicDecay : Bool
  spiMode : SpiMode
  pinAssign : PinAssign
  relayInit : Bool := false
  deriving DecidableEq, Repr, Inhabited

/-- The eight things in index order. -/
def ByValve.toList {α : Type} (x : ByValve α) : List α := [x.v0, x.v1, x.v2, x.v3, x.v4, x.v5, x.v6, x.v7]

/-- The ten assigned pins (00_scope R9). -/
def PinAssign.toList (p : PinAssign) : List Nat :=
  [p.lines.icA.cs, p.lines.icA.strobe, p.lines.icA.nReset, p.lines.icA.nSleep,
   p.lines.icB.cs, p.lines.icB.strobe, p.lines.icB.nReset, p.lines.icB.nSleep, p.relay,
   p.tenth]

/-- The constraints of 00_scope R9: mode names and codes distinct, `Rest` among them, the partner of a paired mode (code
xor 1, 42_presets R176) present and paired, `VALVE_MAP` a bijection (eight distinct pairs of the eight), the default pulse
width not below the minimum, 24 panic widths in 10..100, ten distinct pins; and the Zero pair of 42_presets R173 and R176:
`ZeroPumpOn` and `ZeroPumpOff` are each other's partners, bit 0 of their codes 1 and 0. R9 requires no member but `Rest`,
so the pair is required of a configuration that has either of them (notes/assumptions/7.md). -/
structure Config.Valid (c : Config) : Prop where
  modesNodup : (c.modes.map (·.mode)).Nodup
  codesNodup : (c.modes.map (·.code)).Nodup
  restMember : Mode.rest ∈ c.modes.map (·.mode)
  partnerPaired : ∀ e ∈ c.modes, e.paired = true → ∃ p ∈ c.modes, p.code = e.code ^^^ 1#32 ∧ p.paired = true
  zeroPumpOn : ∀ e ∈ c.modes, e.mode = .zeroPumpOn → e.paired = true ∧ e.code.getLsbD 0 = true ∧
    ∃ p ∈ c.modes, p.mode = .zeroPumpOff ∧ p.code = e.code ^^^ 1#32
  zeroPumpOff : ∀ e ∈ c.modes, e.mode = .zeroPumpOff → e.paired = true ∧ e.code.getLsbD 0 = false ∧
    ∃ p ∈ c.modes, p.mode = .zeroPumpOn ∧ p.code = e.code ^^^ 1#32
  valveMapBijective : c.valveMap.toList.Nodup
  defaultNotBelowMin : c.pulseWidthMinMs ≤ c.pulseWidthDefaultMs
  panicCount : c.panicWidths.length = 24
  panicRange : ∀ w ∈ c.panicWidths, 10#32 ≤ w ∧ w ≤ 100#32
  pinsNodup : c.pinAssign.toList.Nodup

/-- A target whose members are in range (42_presets R172). -/
def ValveTarget.inRange (t : ValveTarget) : Bool :=
  decide (t.direction ≤ 1#8) && decide (t.current ≤ 7#8) && decide (t.decay ≤ 1#8)

/-- A preset whose eight targets are in range (42_presets R172). -/
def Preset.inRange (p : Preset) : Bool := p.valve.toList.all ValveTarget.inRange

/-- WF-PRESET (42_presets R172): every default target in range, and one current level throughout. A premise on the
configuration, which the block does not check. -/
structure Config.WfPreset (c : Config) : Prop where
  inRange : ∀ e ∈ c.modes, e.preset.inRange = true
  uniform : ∃ level : U8, ∀ e ∈ c.modes, ∀ t ∈ e.preset.valve.toList, t.current = level

/-- For every paired mode the stored pump flag agrees with bit 0 of the code ("the mapping table must preserve this
encoding", 42_presets R176). A premise on the configuration. -/
def Config.PumpAgrees (c : Config) : Prop := ∀ e ∈ c.modes, e.paired = true → e.preset.pump = e.code.getLsbD 0

/-- The configuration of the device in hand. The source gives no value (91_not_in_source N1 to N9), so nothing is known
of it (notes/assumptions/2.md). -/
opaque Config.platform : Config

/-- FREE VALUE (00_scope R13): whether the transfer with this number succeeds, once the environment's listed answers are
used up (notes/assumptions/3.md). -/
opaque Config.spiOk : Nat → Bool

end Sys2Proof
end

