-- ==== Sys2Proof/WellFormed.lean ====
section
/-! DEFINITION. Which instruction terms the block's interface can carry. -/

namespace Sys2Proof

/-- The one check that the types do not make already: a valve index is at most 7 ("index 0..7", 30_encoding R99, R100).
A level of `set_current` and a width of `set_pulse_width_ms` are compared by the command itself (R199, R200), and a mode
code is looked up by `set_mode` (R100), since that needs the configuration. -/
def Instr.wellFormed : Instr → Bool
  | .getValveDirection index => decide (index ≤ 7#32)
  | .init | .setMode _ | .togglePump | .setCurrent _ | .getCurrent | .setPulseWidthMs _ | .getPulseWidthMs | .getMode
  | .panicRecover | .sleepDrivers | .valveOverride _ _ | .wordAb _ _ _ | .wordCd _ _ _ | .encodeChA _ | .encodeChB _
  | .encodeChC _ | .encodeChD _ | .sub6 _ | .rsp40 _ _ => true

end Sys2Proof
end

