-- ==== Sys2Proof/Decode.lean ====
section
/-! DEFINITION. The frames, the decoder (total, rejecting by name) and the encoder, from the layouts of 30_encoding. -/

namespace Sys2Proof

/-- What stands at the model's input: a frame of one of the formats of the opcode table (30_encoding R90, R105). The
host's port carries `cmd40` only. The others are the model's own requests for an internal act run alone; a `WORD16` comes
with the IC whose `CS` line selects it (20_memory R61), an `ENC16` with its channel (notes/assumptions/5.md). -/
inductive Frame where
  | cmd40 (w : BitVec 40)
  | word16 (ic : IcId) (w : U16)
  | enc16 (ch : ChannelId) (w : U16)
  | sub6 (w : BitVec 6)
  | rsp40 (w : BitVec 40)
  deriving DecidableEq, Repr

/-- Why a frame is no instruction. -/
inductive Reject where
  /-- An opcode of `0x0C..0xFF` (30_encoding R100). -/
  | reservedOpcode
  /-- A `valve_override` frame with a must-be-zero bit set (30_encoding R99, R100). -/
  | mustBeZero
  /-- A `get_valve_direction` index above 7 (30_encoding R100). -/
  | indexAboveSeven
  /-- A word of `0x2000..0xFFFF` (30_encoding R96). -/
  | reservedWord
  /-- An `ENC16` word that is no encoding of its channel (30_encoding R95). -/
  | notEncodingOfChannel
  /-- A response code other than 0 to 3 (60_exceptions R231). -/
  | unnamedResult
  deriving DecidableEq, Repr

/-- The valve index of three bits (`cmd[2:0]`, 30_encoding R99). -/
def ValveId.ofBits (w : BitVec 3) : ValveId :=
  if w = 0#3 then .v0 else if w = 1#3 then .v1 else if w = 2#3 then .v2 else if w = 3#3 then .v3
  else if w = 4#3 then .v4 else if w = 5#3 then .v5 else if w = 6#3 then .v6 else .v7

/-- The three bits of a valve index. -/
def ValveId.bits : ValveId → BitVec 3
  | .v0 => 0 | .v1 => 1 | .v2 => 2 | .v3 => 3 | .v4 => 4 | .v5 => 5 | .v6 => 6 | .v7 => 7

/-- The numeric code of a result (60_exceptions R231). -/
def Result.code : Result → U8
  | .ok => 0 | .invalidParameter => 1 | .transferFailed => 2 | .partialCommit => 3

/-- The result a code names, if any (60_exceptions R231). -/
def Result.ofCode (w : U8) : Option Result :=
  if w = 0#8 then some .ok else if w = 1#8 then some .invalidParameter else if w = 2#8 then some .transferFailed
  else if w = 3#8 then some .partialCommit else none

/-- `SUB6`: most significant first decay, current, phase, enable (30_encoding R91). -/
def ChannelField.sub6 (f : ChannelField) : BitVec 6 :=
  BitVec.ofBool f.decay ++ f.current ++ BitVec.ofBool f.phase ++ BitVec.ofBool f.enable

/-- The field that six bits lay out (30_encoding R91); every value is the encoding of exactly one field (R95). -/
def ChannelField.ofSub6 (w : BitVec 6) : ChannelField :=
  ⟨w.getLsbD 5, w.extractLsb' 2 3, w.getLsbD 1, w.getLsbD 0⟩

/-- `WORD16`: bits 15..12 the opcode, bits 11..6 the high slot, bits 5..0 the low slot (30_encoding R92, R93, R95). -/
def wordOf (op : BitVec 4) (high low : ChannelField) : U16 := op ++ high.sub6 ++ low.sub6

/-- The field in the high slot, bits 11..6 (20_memory R61). -/
def highSlot (w : U16) : ChannelField := .ofSub6 (w.extractLsb' 6 6)

/-- The field in the low slot, bits 5..0 (20_memory R61). -/
def lowSlot (w : U16) : ChannelField := .ofSub6 (w.extractLsb' 0 6)

/-- `CMD40` and `RSP40`: eight bits, then a 32-bit operand or value (30_encoding R98). -/
def frameOf (high : U8) (low : U32) : BitVec 40 := high ++ low

/-- The opcode or result code, `[39:32]` (30_encoding R98). -/
def frameHigh (w : BitVec 40) : U8 := w.extractLsb' 32 8

/-- The operand or value, `[31:0]` (30_encoding R98). -/
def frameLow (w : BitVec 40) : U32 := w.extractLsb' 0 32

/-- The operand of `valve_override`: `cmd[8]` direction, `cmd[2:0]` index, the rest 0 (30_encoding R99). -/
def overrideOperand (index : ValveId) (direction : Bool) : U32 :=
  0#23 ++ BitVec.ofBool direction ++ 0#5 ++ index.bits

/-- A host command frame (30_encoding R98 to R100). -/
def decodeCommand (w : BitVec 40) : Except Reject Instr :=
  let operand := frameLow w
  match (frameHigh w).toNat with
  | 0x00 => .ok .init
  | 0x01 => .ok (.setMode operand)
  | 0x02 => .ok .togglePump
  | 0x03 => .ok (.setCurrent operand)
  | 0x04 => .ok .getCurrent
  | 0x05 => .ok (.setPulseWidthMs operand)
  | 0x06 => .ok .getPulseWidthMs
  | 0x07 => .ok .getMode
  | 0x08 => if operand ≤ 7#32 then .ok (.getValveDirection operand) else .error .indexAboveSeven
  | 0x09 => .ok .panicRecover
  | 0x0A => .ok .sleepDrivers
  | 0x0B =>
    if operand &&& 0xFFFFFEF8#32 = 0#32 then
      .ok (.valveOverride (.ofBits (operand.extractLsb' 0 3)) (operand.getLsbD 8))
    else .error .mustBeZero
  | _ => .error .reservedOpcode

/-- An SPI word: bits 15..12 are 0000 or 0001 (30_encoding R95), anything else is reserved (R96). -/
def decodeWord (ic : IcId) (w : U16) : Except Reject Instr :=
  if w.extractLsb' 12 4 = 0#4 then .ok (.wordAb ic (highSlot w) (lowSlot w))
  else if w.extractLsb' 12 4 = 1#4 then .ok (.wordCd ic (highSlot w) (lowSlot w))
  else .error .reservedWord

/-- One channel's contribution to a word, by the match and mask of 30_encoding R95. -/
def decodeContribution (ch : ChannelId) (w : U16) : Except Reject Instr :=
  match ch with
  | .chA => if w &&& 0xFFC0#16 = 0x0000#16 then .ok (.encodeChA (lowSlot w)) else .error .notEncodingOfChannel
  | .chB => if w &&& 0xF03F#16 = 0x0000#16 then .ok (.encodeChB (highSlot w)) else .error .notEncodingOfChannel
  | .chC => if w &&& 0xFFC0#16 = 0x1000#16 then .ok (.encodeChC (lowSlot w)) else .error .notEncodingOfChannel
  | .chD => if w &&& 0xF03F#16 = 0x1000#16 then .ok (.encodeChD (highSlot w)) else .error .notEncodingOfChannel

/-- A response frame (30_encoding R98, 60_exceptions R231). -/
def decodeResponse (w : BitVec 40) : Except Reject Instr :=
  match Result.ofCode (frameHigh w) with
  | some r => .ok (.rsp40 r (frameLow w))
  | none => .error .unnamedResult

/-- The decoder, total on every frame. -/
def decode : Frame → Except Reject Instr
  | .cmd40 w => decodeCommand w
  | .word16 ic w => decodeWord ic w
  | .enc16 ch w => decodeContribution ch w
  | .sub6 w => .ok (.sub6 (.ofSub6 w))
  | .rsp40 w => decodeResponse w

/-- The encoder, from the same layouts; an ignored operand is sent as 0. -/
def encode : Instr → Frame
  | .init => .cmd40 (frameOf 0x00 0)
  | .setMode code => .cmd40 (frameOf 0x01 code)
  | .togglePump => .cmd40 (frameOf 0x02 0)
  | .setCurrent level => .cmd40 (frameOf 0x03 level)
  | .getCurrent => .cmd40 (frameOf 0x04 0)
  | .setPulseWidthMs ms => .cmd40 (frameOf 0x05 ms)
  | .getPulseWidthMs => .cmd40 (frameOf 0x06 0)
  | .getMode => .cmd40 (frameOf 0x07 0)
  | .getValveDirection index => .cmd40 (frameOf 0x08 index)
  | .panicRecover => .cmd40 (frameOf 0x09 0)
  | .sleepDrivers => .cmd40 (frameOf 0x0A 0)
  | .valveOverride index direction => .cmd40 (frameOf 0x0B (overrideOperand index direction))
  | .wordAb ic b a => .word16 ic (wordOf 0 b a)
  | .wordCd ic d c => .word16 ic (wordOf 1 d c)
  | .encodeChA f => .enc16 .chA (wordOf 0 .zero f)
  | .encodeChB f => .enc16 .chB (wordOf 0 f .zero)
  | .encodeChC f => .enc16 .chC (wordOf 1 .zero f)
  | .encodeChD f => .enc16 .chD (wordOf 1 f .zero)
  | .sub6 f => .sub6 f.sub6
  | .rsp40 r v => .rsp40 (frameOf r.code v)

/-- The frame of a row's bits: six bits are a `SUB6`, sixteen an SPI word for IC_A, forty a host command. The opcode
table gives no format or IC beside the bits, so an `ENC16` or `RSP40` row reads as the word or command with the same bits
(notes/assumptions/5.md). -/
def frameOfTableWord (nbits w : Nat) : Option Frame :=
  if nbits ≤ 8 then (if w < 64 then some (.sub6 (BitVec.ofNat 6 w)) else none)
  else if nbits ≤ 16 then (if w < 65536 then some (.word16 .icA (BitVec.ofNat 16 w)) else none)
  else if nbits ≤ 40 then (if w < 1099511627776 then some (.cmd40 (BitVec.ofNat 40 w)) else none)
  else none

/-- What the decoder reads from an instruction numbered as the opcode table numbers it. -/
def decodeTableWord (nbits w : Nat) : Option Instr :=
  match frameOfTableWord nbits w with
  | some f => (match decode f with | .ok i => some i | .error _ => none)
  | none => none

end Sys2Proof
end

