-- ==== Sys2Proof/Machine/State.lean ====
section
/-! DEFINITION. The state of the block as plain data (10_state R20, 20_memory R74), its ports, its power-on value, and
the reasons a step can stop. -/

namespace Sys2Proof.Machine

/-- Four fields and the two words ChannelCodec derives from them (10_state R22). -/
structure IcCommandSet where
  field : ByChannel ChannelField
  wordAB : U16
  wordCD : U16
  deriving DecidableEq, Repr, Inhabited

/-- Four zero fields and their words `0x0000`, `0x1000` (10_state R55). -/
abbrev IcCommandSet.zero : IcCommandSet := ⟨⟨.zero, .zero, .zero, .zero⟩, 0x0000, 0x1000⟩

/-- The four GPIO lines of one IC (10_state R41). -/
inductive Line where
  | cs | strobe | nReset | nSleep
  deriving DecidableEq, Repr, Inhabited

/-- The electrical levels last driven on one IC's lines (10_state R41). -/
structure Lines where
  cs : Bool
  strobe : Bool
  nReset : Bool
  nSleep : Bool
  deriving DecidableEq, Repr, Inhabited

/-- A device register: a value, or `unknown`, which is the spec's own value (20_memory R74). -/
inductive Latch (n : Nat) where
  | known (v : BitVec n)
  | unknown
  deriving DecidableEq, Repr, Inhabited

/-- The device side of one IC (20_memory R74). -/
structure DevIc where
  shift : Latch 16
  regAB : Latch 12
  regCD : Latch 12
  deriving DecidableEq, Repr, Inhabited

/-- The ten phase names (10_state R31). -/
inductive Phase where
  | uninit | idle | wake | validate | pulse | hold | release | commit | reset | sleep
  deriving DecidableEq, Repr, Inhabited

/-- The events of the downstream port (00_scope R12). -/
inductive Event where
  | pin (ic : IcId) (line : Line) (level : Bool)
  | spi (ic : IcId) (hi lo : U8) (ok : Bool)
  | delay (ms : U32)
  | relay (level : Bool)
  | spiCfg (ic : IcId)
  | spiOff
  | spiOn
  deriving DecidableEq, Repr

/-- What one run returns (00_scope R16): a host command's response (30_encoding R98), or what an internal act run alone
returns: the success of a transfer, a word, a field (notes/assumptions/5.md). -/
inductive Answer where
  | response (result : Result) (value : U32)
  | transfer (ok : Bool)
  | word (w : U16)
  | field (f : ChannelField)
  deriving DecidableEq, Repr

/-- Why the machine stops. -/
inductive Fault where
  /-- Raised by `step` alone, for a request of the model's own (`ENC16` or `RSP40`) that is no row of the opcode table.
  The host's port cannot send one. Safe: nothing is claimed past it (notes/assumptions/13.md). -/
  | notARow (why : Reject)
  deriving DecidableEq, Repr

/-- Why an instruction has no meaning. -/
inductive Refusal where
  /-- Raised by `exec` for an instruction whose meaning is not written yet; no arm raises it now. Safe. -/
  | notModelled (mnemonic : String)
  deriving DecidableEq, Repr

/-- The state. The first group is 10_state R20; `dev` is 20_memory R74; the rest is the model's own: the configuration
argument (notes/assumptions/2.md), the two ports (4, 10) and the environment's answers (3). -/
@[ext]
structure State where
  pending : ByIc IcCommandSet
  committed : ByIc IcCommandSet
  table : List (Mode × Preset)
  mirror : Preset
  mode : Mode
  pulseWidthMs : U32
  relay : Bool
  pin : ByIc Lines
  spiOn : Bool
  phase : Phase
  failed : Bool
  dev : ByIc DevIc
  cfg : Config
  inbox : List Frame
  results : List Answer
  trace : List Event
  spiAnswers : List Bool
  draws : Nat
  deriving DecidableEq, Repr

/-- Power-on (10_state R55, 70_reset_and_hazards R261) under a configuration: `P_UNINIT`, `failed` 0, the default pulse
width, the device unknown, no event yet. The items the spec gives no value before `init` hold the values of
notes/assumptions/6.md. -/
def State.powerOn (c : Config) : State where
  pending := ⟨.zero, .zero⟩
  committed := ⟨.zero, .zero⟩
  table := c.modes.map fun e => (e.mode, Preset.zero)
  mirror := .zero
  mode := .rest
  pulseWidthMs := c.pulseWidthDefaultMs
  relay := false
  pin := ⟨⟨false, false, false, false⟩, ⟨false, false, false, false⟩⟩
  spiOn := false
  phase := .uninit
  failed := false
  dev := ⟨⟨.unknown, .unknown, .unknown⟩, ⟨.unknown, .unknown, .unknown⟩⟩
  cfg := c
  inbox := []
  results := []
  trace := []
  spiAnswers := []
  draws := 0

/-- The machine right after power-on, under the configuration of the device in hand. -/
def State.reset : State := State.powerOn Config.platform

end Sys2Proof.Machine
end

