-- ==== Sys2Proof/Machine/Operands.lean ====
section
/-! DEFINITION. The one place where indexed state is read and written, and the lookups of operands: an IC, a channel,
a valve, a line, a mode, a mode code (20_memory R60, R63). -/

namespace Sys2Proof.Machine

/-- `x[ic]`. -/
def icGet {α : Type} (x : ByIc α) : IcId → α
  | .icA => x.icA
  | .icB => x.icB

/-- `x[ic] <- v`. -/
def icSet {α : Type} (x : ByIc α) (ic : IcId) (v : α) : ByIc α :=
  match ic with
  | .icA => { x with icA := v }
  | .icB => { x with icB := v }

/-- `x[ch]`. -/
def chGet {α : Type} (x : ByChannel α) : ChannelId → α
  | .chA => x.chA
  | .chB => x.chB
  | .chC => x.chC
  | .chD => x.chD

/-- `x[ch] <- v`. -/
def chSet {α : Type} (x : ByChannel α) (ch : ChannelId) (v : α) : ByChannel α :=
  match ch with
  | .chA => { x with chA := v }
  | .chB => { x with chB := v }
  | .chC => { x with chC := v }
  | .chD => { x with chD := v }

/-- `x[v]`. -/
def valveGet {α : Type} (x : ByValve α) : ValveId → α
  | .v0 => x.v0
  | .v1 => x.v1
  | .v2 => x.v2
  | .v3 => x.v3
  | .v4 => x.v4
  | .v5 => x.v5
  | .v6 => x.v6
  | .v7 => x.v7

/-- `x[v] <- t`. -/
def valveSet {α : Type} (x : ByValve α) (v : ValveId) (t : α) : ByValve α :=
  match v with
  | .v0 => { x with v0 := t }
  | .v1 => { x with v1 := t }
  | .v2 => { x with v2 := t }
  | .v3 => { x with v3 := t }
  | .v4 => { x with v4 := t }
  | .v5 => { x with v5 := t }
  | .v6 => { x with v6 := t }
  | .v7 => { x with v7 := t }

/-- The same change to all eight. -/
def valveMapAll {α β : Type} (g : α → β) (x : ByValve α) : ByValve β :=
  ⟨g x.v0, g x.v1, g x.v2, g x.v3, g x.v4, g x.v5, g x.v6, g x.v7⟩

/-- The order of the validation loop, `for v in 0, 1, ..., 7` (42_presets R171). -/
def valveOrder : List ValveId := [.v0, .v1, .v2, .v3, .v4, .v5, .v6, .v7]

/-- `pin[ic][line]` of one IC. -/
def lineGet (x : Lines) : Line → Bool
  | .cs => x.cs
  | .strobe => x.strobe
  | .nReset => x.nReset
  | .nSleep => x.nSleep

/-- `pin[ic][line] <- level` of one IC. -/
def lineSet (x : Lines) (line : Line) (level : Bool) : Lines :=
  match line with
  | .cs => { x with cs := level }
  | .strobe => { x with strobe := level }
  | .nReset => { x with nReset := level }
  | .nSleep => { x with nSleep := level }

/-- The valve index of a 32-bit operand already known to be at most 7 (30_encoding R99). -/
def valveOfIndex (index : U32) : ValveId := .ofBits (index.extractLsb' 0 3)

/-- The member of `MODES` with this name. -/
def entryOf (c : Config) (m : Mode) : Option ModeEntry := c.modes.find? fun e => decide (e.mode = m)

/-- The member of `MODES` whose `MODE_CODE` is this (30_encoding R99, R100). -/
def entryOfCode (c : Config) (code : U32) : Option ModeEntry := c.modes.find? fun e => decide (e.code = code)

/-- `MODE_CODE(m)` (00_scope R9); outside `MODES`, which no run reaches, 0 (notes/assumptions/8.md). -/
def modeCode (c : Config) (m : Mode) : U32 :=
  match entryOf c m with
  | some e => e.code
  | none => 0

/-- `PAIRED(m)` (00_scope R9); outside `MODES`, false (notes/assumptions/8.md). -/
def modePaired (c : Config) (m : Mode) : Bool :=
  match entryOf c m with
  | some e => e.paired
  | none => false

/-- `PRESET_DEFAULT[m]` (00_scope R9); outside `MODES`, the zero preset (notes/assumptions/8.md). -/
def presetDefault (c : Config) (m : Mode) : Preset :=
  match entryOf c m with
  | some e => e.preset
  | none => .zero

/-- `table[m]` (10_state R26); where there is no such entry, which no run reaches, the zero preset
(notes/assumptions/8.md). -/
def tableGet (t : List (Mode × Preset)) (m : Mode) : Preset :=
  match t.find? fun x => decide (x.1 = m) with
  | some x => x.2
  | none => .zero

/-- `valve_lookup(v)` (42_presets R170). -/
def valveLookup (c : Config) (v : ValveId) : IcId × ChannelId := valveGet c.valveMap v

end Sys2Proof.Machine
end

