-- ==== Sys2Proof/Machine/Codec.lean ====
section
/-! DEFINITION. The channel codec: five pure procedures (40_codec R120 to R125). -/

namespace Sys2Proof.Machine

/-- `mk_field`, the validating constructor (40_codec R120): on rejection `out` is handed back untouched. -/
def mkField (decay current phase enable : U8) (out : ChannelField) : Result × ChannelField :=
  if decay > 1#8 ∨ current > 7#8 ∨ phase > 1#8 ∨ enable > 1#8 then (.invalidParameter, out)
  else (.ok, ⟨decay.getLsbD 0, current.extractLsb' 0 3, phase.getLsbD 0, enable.getLsbD 0⟩)

/-- A bit as a 16-bit word (`zext_16`, 00_scope R11). -/
def bit16 (b : Bool) : U16 := (BitVec.ofBool b).setWidth 16

/-- Step one of `encode`: the sub-field in bits 5..0 (40_codec R121). -/
def encodeBase (f : ChannelField) : U16 :=
  bit16 f.enable ||| (bit16 f.phase <<< 1) ||| (f.current.setWidth 16 <<< 2) ||| (bit16 f.decay <<< 5)

/-- `encode` (40_codec R121): ChB and ChD shifted left by 6, bit 12 set for ChC and ChD. -/
def encodeField (ch : ChannelId) (f : ChannelField) : U16 :=
  match ch with
  | .chA => encodeBase f
  | .chB => encodeBase f <<< 6
  | .chC => encodeBase f ||| 0x1000#16
  | .chD => (encodeBase f <<< 6) ||| 0x1000#16

/-- `decode` (40_codec R122): the channel's slot, whatever bits 15..12 and the other slot hold. -/
def decodeField (ch : ChannelId) (w : U16) : ChannelField :=
  let sub : BitVec 6 :=
    match ch with
    | .chB | .chD => w.extractLsb' 6 6
    | .chA | .chC => w.extractLsb' 0 6
  ⟨sub.getLsbD 5, sub.extractLsb' 2 3, sub.getLsbD 1, sub.getLsbD 0⟩

/-- `assemble` (40_codec R124): the words AB and CD of four fields. -/
def assemble (f : ByChannel ChannelField) : U16 × U16 :=
  (encodeField .chA f.chA ||| encodeField .chB f.chB, encodeField .chC f.chC ||| encodeField .chD f.chD)

/-- The channel's slot in its word (40_codec R125). -/
def slotMask : ChannelId → U16
  | .chA | .chC => 0x003F#16
  | .chB | .chD => 0x0FC0#16

/-- `merge` (40_codec R125): one channel's update of a word. -/
def merge (ch : ChannelId) (old : U16) (f : ChannelField) : U16 := (old &&& ~~~ slotMask ch) ||| encodeField ch f

end Sys2Proof.Machine
end

