-- ==== Sys2Proof/Machine/Device.lean ====
section
/-! DEFINITION. The driven ICs: how they react to the events of the trace (20_memory R75) and what their outputs do
(20_memory R76). -/

namespace Sys2Proof.Machine

/-- Both latched registers unknown (20_memory R75). -/
def DevIc.lose (d : DevIc) : DevIc := { d with regAB := .unknown, regCD := .unknown }

/-- A rising strobe at an IC that is awake and out of reset (20_memory R75): a known frame with bits 15..13 zero goes to
the register its bit 12 names, anything else leaves both registers unknown. -/
def DevIc.latch (d : DevIc) : DevIc :=
  match d.shift with
  | .unknown => d.lose
  | .known w =>
    if w.extractLsb' 13 3 ≠ 0#3 then d.lose
    else if w.getLsbD 12 then { d with regCD := .known (w.extractLsb' 0 12) }
    else { d with regAB := .known (w.extractLsb' 0 12) }

/-- What one event does to the IC it names, given the lines and `spi_on` before the event (20_memory R75). The clearing
on `nRESET` and the keeping through `nSLEEP` are the spec's general knowledge G1, G2 (notes/assumptions/16.md). -/
def DevIc.react (d : DevIc) (lines : Lines) (spiOn : Bool) : Event → DevIc
  | .spi _ hi lo ok =>
    if ok && lines.cs && lines.nSleep && lines.nReset && spiOn then { d with shift := .known (hi ++ lo) }
    else { d with shift := .unknown }
  | .pin _ .strobe true =>
    if lines.strobe || !lines.nSleep || !lines.nReset then d else d.latch
  | .pin _ .nReset false => { shift := .unknown, regAB := .known 0, regCD := .known 0 }
  | .pin _ .cs _ | .pin _ .strobe false | .pin _ .nReset true | .pin _ .nSleep _ => d
  | .delay _ | .relay _ | .spiCfg _ | .spiOff | .spiOn => d

/-- The IC an event is about. -/
def eventIc : Event → Option IcId
  | .pin ic _ _ | .spi ic _ _ _ | .spiCfg ic => some ic
  | .delay _ | .relay _ | .spiOff | .spiOn => none

/-- The device side after an event; the IC it does not name does not react. -/
def devAfter (e : Event) (s : State) : ByIc DevIc :=
  match eventIc e with
  | some ic => icSet s.dev ic ((icGet s.dev ic).react (icGet s.pin ic) s.spiOn e)
  | none => s.dev

/-- What one H-bridge does (20_memory R76). -/
inductive BridgeOutput where
  | off
  | driven (polarity : Bool) (current : BitVec 3) (decay : Bool)
  | unknown
  deriving DecidableEq, Repr

/-- The six bits of a channel in the latched registers (20_memory R61). -/
def DevIc.slot (d : DevIc) : ChannelId → Latch 6
  | .chA => match d.regAB with | .known p => .known (p.extractLsb' 0 6) | .unknown => .unknown
  | .chB => match d.regAB with | .known p => .known (p.extractLsb' 6 6) | .unknown => .unknown
  | .chC => match d.regCD with | .known p => .known (p.extractLsb' 0 6) | .unknown => .unknown
  | .chD => match d.regCD with | .known p => .known (p.extractLsb' 6 6) | .unknown => .unknown

/-- The output of one channel of one IC (20_memory R76): off when the IC is asleep, in reset or the enable bit is 0, else
driven; unknown when the register is (notes/assumptions/15.md on an IC both asleep and unknown). -/
def bridgeOutput (s : State) (ic : IcId) (ch : ChannelId) : BridgeOutput :=
  if !(icGet s.pin ic).nSleep || !(icGet s.pin ic).nReset then .off
  else
    match (icGet s.dev ic).slot ch with
    | .unknown => .unknown
    | .known sub => if sub.getLsbD 0 then .driven (sub.getLsbD 1) (sub.extractLsb' 2 3) (sub.getLsbD 5) else .off

end Sys2Proof.Machine
end

