-- ==== Sys2Proof/Machine/Flags.lean ====
section
/-! DEFINITION. The block has no status flags and no condition codes (10_state R36). What stands in their place: the
transient bit `failed`, the phase register, and the answer of a run. -/

namespace Sys2Proof.Machine

/-- `phase <- p` (10_state R33). -/
def State.setPhase (s : State) (p : Phase) : State := { s with phase := p }

/-- `failed <- b` (10_state R31). -/
def State.setFailed (s : State) (b : Bool) : State := { s with failed := b }

/-- What a run returns goes out at the upstream port (00_scope R16). -/
def State.answer (s : State) (a : Answer) : State := { s with results := s.results ++ [a] }

/-- A host command's response: the result and a value, zero unless the command's rule says otherwise
(30_encoding R98). -/
def respond (r : Result) (value : U32) (s : State) : State := s.answer (.response r value)

/-- The bit order of a response frame (30_encoding R98, 60_exceptions R231). -/
def responseFrame (r : Result) (value : U32) : BitVec 40 := frameOf r.code value

end Sys2Proof.Machine
end

