-- ==== Sys2Proof/Machine/Port.lean ====
section
/-! DEFINITION. The named operations over the registers and the downstream port: each event goes to the trace and to the
device side before the level it drives is recorded (00_scope R11, R12; 20_memory R75). -/

namespace Sys2Proof.Machine

/-- `emit e` (00_scope R11): the event joins the trace and the ICs react to it. -/
def emit (e : Event) (s : State) : State := { s with trace := s.trace ++ [e], dev := devAfter e s }

/-- `pending[ic] <- c`. -/
def State.setPending (s : State) (ic : IcId) (c : IcCommandSet) : State := { s with pending := icSet s.pending ic c }

/-- `committed[ic] <- c`. -/
def State.setCommitted (s : State) (ic : IcId) (c : IcCommandSet) : State :=
  { s with committed := icSet s.committed ic c }

/-- `table <- t`. -/
def State.setTable (s : State) (t : List (Mode × Preset)) : State := { s with table := t }

/-- `mirror <- p`. -/
def State.setMirror (s : State) (p : Preset) : State := { s with mirror := p }

/-- `mode <- m`. -/
def State.setMode (s : State) (m : Mode) : State := { s with mode := m }

/-- `pulse_width_ms <- ms`. -/
def State.setPulseWidth (s : State) (ms : U32) : State := { s with pulseWidthMs := ms }

/-- `relay <- b`. -/
def State.setRelay (s : State) (b : Bool) : State := { s with relay := b }

/-- `pin[ic][line] <- level`. -/
def State.setPin (s : State) (ic : IcId) (line : Line) (level : Bool) : State :=
  { s with pin := icSet s.pin ic (lineSet (icGet s.pin ic) line level) }

/-- `spi_on <- b`. -/
def State.setSpiOn (s : State) (b : Bool) : State := { s with spiOn := b }

/-- The commands still waiting at the upstream port. -/
def State.setInbox (s : State) (fs : List Frame) : State := { s with inbox := fs }

/-- `emit Pin(ic, line, level); pin[ic][line] <- level`. -/
def drivePin (ic : IcId) (line : Line) (level : Bool) (s : State) : State :=
  (emit (.pin ic line level) s).setPin ic line level

/-- `emit Relay(level); relay <- level`. -/
def driveRelay (level : Bool) (s : State) : State := (emit (.relay level) s).setRelay level

/-- `emit SpiOn; spi_on <- 1` or `emit SpiOff; spi_on <- 0`. -/
def driveSpi (on : Bool) (s : State) : State := (emit (if on then .spiOn else .spiOff) s).setSpiOn on

/-- The answer that `draw ok` gives (00_scope R13): the next one the environment has listed, and past the list the free
value of this transfer's number (notes/assumptions/3.md). -/
def drawnOk (s : State) : Bool :=
  match s.spiAnswers with
  | ok :: _ => ok
  | [] => Config.spiOk s.draws

/-- The state after a draw. -/
def afterDraw (s : State) : State := { s with spiAnswers := s.spiAnswers.tail, draws := s.draws + 1 }

end Sys2Proof.Machine
end

