-- ==== Sys2Proof/Machine/Driver.lean ====
section
/-! DEFINITION. The per-IC driver procedures (41_driver R140 to R147). -/

namespace Sys2Proof.Machine

/-- `xfer_word` (41_driver R140): one word to one IC, high byte first (20_memory R64), then the strobe, whether or not
the transfer succeeded. -/
def xferWord (ic : IcId) (w : U16) (s : State) : Bool × State :=
  let s := drivePin ic .cs true s
  let ok := drawnOk s
  let s := emit (.spi ic (w.extractLsb' 8 8) (w.extractLsb' 0 8) ok) (afterDraw s)
  let s := drivePin ic .cs false s
  let s := drivePin ic .strobe true s
  let s := emit (.delay s.cfg.strobeDelayMs) s
  (ok, drivePin ic .strobe false s)

/-- `drv_init` (41_driver R141). -/
def drvInit (ic : IcId) (s : State) : State :=
  let s := driveSpi true (emit (.spiCfg ic) s)
  let s := drivePin ic .nSleep true (drivePin ic .nReset true (drivePin ic .strobe false (drivePin ic .cs false s)))
  (s.setPending ic .zero).setCommitted ic .zero

/-- The set with one channel's field replaced and its word merged into the old one (41_driver R143). -/
def updateChannel (c : IcCommandSet) (ch : ChannelId) (f : ChannelField) : IcCommandSet :=
  match ch with
  | .chA | .chB => { c with field := chSet c.field ch f, wordAB := merge ch c.wordAB f }
  | .chC | .chD => { c with field := chSet c.field ch f, wordCD := merge ch c.wordCD f }

/-- The word of a set that holds a channel (20_memory R61). -/
def wordHolding (c : IcCommandSet) : ChannelId → U16
  | .chA | .chB => c.wordAB
  | .chC | .chD => c.wordCD

/-- `drv_set_single_channel` (41_driver R143): `pending` starts from `committed`, one word goes out, and only on success
does `pending` become `committed`. The other channels go out as `committed` has them, whatever their enable
(notes/assumptions/22.md on 60_exceptions R244). -/
def drvSetSingleChannel (ic : IcId) (ch : ChannelId) (f : ChannelField) (s : State) : Result × State :=
  let attempt := updateChannel (icGet s.committed ic) ch f
  let x := xferWord ic (wordHolding attempt ch) (s.setPending ic attempt)
  if x.1 then (.ok, x.2.setCommitted ic attempt) else (.transferFailed, x.2)

/-- `committed` takes the AB word and its two fields (41_driver R144). -/
def commitAB (c : IcCommandSet) (f : ByChannel ChannelField) : IcCommandSet :=
  { c with wordAB := (assemble f).1, field := { c.field with chA := f.chA, chB := f.chB } }

/-- `committed` takes the CD word and its two fields (41_driver R144). -/
def commitCD (c : IcCommandSet) (f : ByChannel ChannelField) : IcCommandSet :=
  { c with wordCD := (assemble f).2, field := { c.field with chC := f.chC, chD := f.chD } }

/-- The second half of `drv_set_all_channels`, after the AB word went through (41_driver R144). -/
def sendCD (ic : IcId) (f : ByChannel ChannelField) (s : State) : Result × State :=
  let x := xferWord ic (assemble f).2 s
  if x.1 then (.ok, x.2.setCommitted ic (commitCD (icGet x.2.committed ic) f)) else (.partialCommit, x.2)

/-- `drv_set_all_channels` (41_driver R144): AB then CD, `committed` brought up to date word by word; the CD word is not
sent when the AB word failed. -/
def drvSetAllChannels (ic : IcId) (f : ByChannel ChannelField) (s : State) : Result × State :=
  let x := xferWord ic (assemble f).1 (s.setPending ic ⟨f, (assemble f).1, (assemble f).2⟩)
  if x.1 then sendCD ic f (x.2.setCommitted ic (commitAB (icGet x.2.committed ic) f)) else (.transferFailed, x.2)

/-- `drv_sleep` (41_driver R145). -/
def drvSleep (ic : IcId) (s : State) : State := drivePin ic .nSleep false s

/-- `drv_wake` (41_driver R146). -/
def drvWake (ic : IcId) (s : State) : State := drivePin ic .nSleep true s

/-- `drv_reset` (41_driver R147): `pending` and `committed` keep their values. -/
def drvReset (ic : IcId) (s : State) : State :=
  let s := drivePin ic .nSleep false (drivePin ic .strobe false (drivePin ic .cs false s))
  let s := drivePin ic .nReset false (driveSpi false s)
  let s := emit (.delay s.cfg.resetDelayMs) s
  driveSpi true (drivePin ic .nReset true s)

end Sys2Proof.Machine
end

