-- ==== Sys2Proof/Machine/Presets.lean ====
section
/-! DEFINITION. The preset table and the expansion of a preset through the valve map (42_presets R171 to R178). -/

namespace Sys2Proof.Machine

/-- The two per-chip sets of four fields, `F[ic][ch]` (42_presets R171). -/
abbrev FieldSets := ByIc (ByChannel ChannelField)

/-- The field sets before the loop has written them: with `VALVE_MAP` a bijection every one is written
(notes/assumptions/9.md). -/
def FieldSets.start : FieldSets := ⟨⟨.zero, .zero, .zero, .zero⟩, ⟨.zero, .zero, .zero, .zero⟩⟩

/-- `F[ic][ch] <- fld`. -/
def setField (F : FieldSets) (ic : IcId) (ch : ChannelId) (f : ChannelField) : FieldSets :=
  icSet F ic (chSet (icGet F ic) ch f)

/-- A bit as a `u8`. -/
def bit8 (b : Bool) : U8 := (BitVec.ofBool b).setWidth 8

/-- The validated field of one target, its direction the phase bit; none when a member is out of range
(42_presets R171, 40_codec R120). -/
def targetField (t : ValveTarget) (enable : Bool) : Option ChannelField :=
  match mkField t.decay t.current t.direction (bit8 enable) .zero with
  | (.ok, f) => some f
  | _ => none

/-- The loop of `route` over the valves still to do: it stops at the first bad valve (42_presets R171). -/
def routeFrom (c : Config) (p : Preset) (enable : Bool) : List ValveId → FieldSets → Option FieldSets
  | [], F => some F
  | v :: vs, F =>
    match targetField (valveGet p.valve v) enable with
    | none => none
    | some f => routeFrom c p enable vs (setField F (valveLookup c v).1 (valveLookup c v).2 f)

/-- `route` (42_presets R171): valves 0 to 7 in order; none is `InvalidParameter`. -/
def route (c : Config) (p : Preset) (enable : Bool) : Option FieldSets :=
  routeFrom c p enable valveOrder FieldSets.start

/-- `seed_table` (42_presets R174). -/
def seedTable (s : State) : State := s.setTable (s.cfg.modes.map fun e => (e.mode, e.preset))

/-- `pump_for` (42_presets R176): bit 0 of a paired mode's code overrides the stored flag. -/
def pumpFor (c : Config) (m : Mode) (p : Preset) : Bool :=
  if modePaired c m then (modeCode c m).getLsbD 0 else p.pump

/-- A preset with every valve's `current` replaced (42_presets R177). -/
def withCurrent (level : U8) (p : Preset) : Preset :=
  { p with valve := valveMapAll (fun t => { t with current := level }) p.valve }

/-- `set_global_current` (42_presets R177). -/
def setGlobalCurrent (level : U32) (s : State) : Result × State :=
  if level ≥ 8#32 then (.invalidParameter, s)
  else (.ok, s.setTable (s.table.map fun x => (x.1, withCurrent ((level.extractLsb' 0 3).setWidth 8) x.2)))

/-- `table_get_current` (42_presets R178). -/
def tableGetCurrent (s : State) : U8 := (valveGet (tableGet s.table .rest).valve .v0).current

end Sys2Proof.Machine
end

