-- ==== Sys2Proof/Machine/Ops.lean ====
section
/-! DEFINITION. The operations the commands share: acceptance and refusal (60_exceptions R230), the wake, one actuation
phase (43_motion_control R192), and what takes the place of taking an exception and returning from one: the failure mark
and the unwinding tail (60_exceptions R235, R236). -/

namespace Sys2Proof.Machine

/-- A refused command (60_exceptions R230, 30_encoding R100): `InvalidParameter`, no event, no change of state. -/
def refuse (s : State) : State := respond .invalidParameter 0 s

/-- Every command but `init` requires `phase = P_IDLE` and is refused otherwise (43_motion_control, 60_exceptions R230). -/
def accepted (s : State) : Bool := decide (s.phase = .idle)

/-- A command that needs `P_IDLE`. -/
def whenAccepted (s : State) (run : State → State) : State := if accepted s then run s else refuse s

/-- Step 1 of an actuation: wake both ICs, then settle (43_motion_control R193, R207, R209). -/
def wakeBoth (s : State) : State :=
  let s := drvWake .icB (drvWake .icA (s.setPhase .wake))
  emit (.delay s.cfg.wakeupDelayMs) s

/-- `both` (43_motion_control R192): IC_A, and IC_B only if IC_A succeeded. -/
def both (F : FieldSets) (s : State) : Result × State :=
  let r := drvSetAllChannels .icA F.icA s
  if r.1 = .ok then drvSetAllChannels .icB F.icB r.2 else r

/-- The hold between pulse and release. -/
def hold (ms : U32) (s : State) : State := emit (.delay ms) (s.setPhase .hold)

/-- Failure entry (60_exceptions R235): a result that is not `Ok` sets `failed`; nothing is saved. -/
def markFailure (r : Result) (s : State) : State := if r = .ok then s else s.setFailed true

/-- The tail that always runs (43_motion_control R193 step 8, R209): both resets, both sleeps, back to `P_IDLE`. -/
def unwind (s : State) : State :=
  let s := drvReset .icB (drvReset .icA (s.setPhase .reset))
  let s := drvSleep .icB (drvSleep .icA (s.setPhase .sleep))
  (s.setFailed false).setPhase .idle

/-- The end of an actuation: failure entry if it failed, the tail, the result returned (60_exceptions R235, R236). -/
def finish (r : Result) (s : State) : State := respond r 0 (unwind (markFailure r s))

end Sys2Proof.Machine
end

