-- ==== Sys2Proof/Machine/Internal.lean ====
section
/-! DEFINITION. The internal acts that have a row in the opcode table, run alone (notes/assumptions/5.md): an SPI word
(41_driver R140), a codec result (40_codec R121), a sub-field (30_encoding R91), a response (30_encoding R98). -/

namespace Sys2Proof.Machine

open Host (Outcome)

/-- One `xfer_word` run alone; what it returns is the answer (41_driver R140). -/
def xferAlone (ic : IcId) (w : U16) (s : State) : State := (xferWord ic w s).2.answer (.transfer (xferWord ic w s).1)

/-- `WORD_AB` (30_encoding R92, 41_driver R140, 20_memory R75): the word of fields B and A goes to the IC's AB register. -/
def execWordAb (ic : IcId) (b a : ChannelField) (s : State) : Outcome State Fault Refusal :=
  .next (xferAlone ic (encodeField .chA a ||| encodeField .chB b) s)

/-- `WORD_CD` (30_encoding R93, 41_driver R140, 20_memory R75): the word of fields D and C goes to the IC's CD register. -/
def execWordCd (ic : IcId) (d c : ChannelField) (s : State) : Outcome State Fault Refusal :=
  .next (xferAlone ic (encodeField .chC c ||| encodeField .chD d) s)

/-- `encode(ChA, f)` (40_codec R121). -/
def execEncodeChA (f : ChannelField) (s : State) : Outcome State Fault Refusal :=
  .next (s.answer (.word (encodeField .chA f)))

/-- `encode(ChB, f)` (40_codec R121). -/
def execEncodeChB (f : ChannelField) (s : State) : Outcome State Fault Refusal :=
  .next (s.answer (.word (encodeField .chB f)))

/-- `encode(ChC, f)` (40_codec R121). -/
def execEncodeChC (f : ChannelField) (s : State) : Outcome State Fault Refusal :=
  .next (s.answer (.word (encodeField .chC f)))

/-- `encode(ChD, f)` (40_codec R121). -/
def execEncodeChD (f : ChannelField) (s : State) : Outcome State Fault Refusal :=
  .next (s.answer (.word (encodeField .chD f)))

/-- `SUB6` (30_encoding R91): six bits are a channel's commanded state, which is what this act yields. -/
def execSub6 (f : ChannelField) (s : State) : Outcome State Fault Refusal := .next (s.answer (.field f))

/-- `RSP40` (30_encoding R98): the response frame goes out at the upstream port. -/
def execRsp40 (r : Result) (value : U32) (s : State) : Outcome State Fault Refusal := .next (respond r value s)

end Sys2Proof.Machine
end

