-- ==== Sys2Proof/Machine/Motion.lean ====
section
/-! DEFINITION. The commands that initialise, actuate, drive the pump, sleep and recover (43_motion_control). -/

namespace Sys2Proof.Machine

open Host (Outcome)

/-- What `init()` does, without its response (43_motion_control R191). -/
def initRun (s : State) : State :=
  let s := drvInit .icB (drvInit .icA (seedTable s))
  let s := driveRelay s.cfg.relayInit s
  let s := (s.setMode .rest).setMirror (presetDefault s.cfg .rest)
  (s.setFailed false).setPhase .idle

/-- `init()` (43_motion_control R191): legal in every state. -/
def execInit (s : State) : Outcome State Fault Refusal := .next (respond .ok 0 (initRun s))

/-- Step 7, the commit: relay, mirror and mode together (43_motion_control R193, 20_memory R71). -/
def commitMode (m : Mode) (p : Preset) (s : State) : State :=
  let s := driveRelay (pumpFor s.cfg m p) (s.setPhase .commit)
  (s.setMirror p).setMode m

/-- Steps 6 and 7, after the hold (43_motion_control R193). -/
def releaseAndCommit (m : Mode) (p : Preset) (Foff : FieldSets) (s : State) : Result × State :=
  let r := both Foff (s.setPhase .release)
  if r.1 = .ok then (.ok, commitMode m p r.2) else r

/-- Steps 4 to 7 (43_motion_control R193); `pulse_width_ms` is read at step 5. -/
def actuate (m : Mode) (p : Preset) (Fon Foff : FieldSets) (s : State) : Result × State :=
  let r := both Fon (s.setPhase .pulse)
  if r.1 = .ok then releaseAndCommit m p Foff (hold r.2.pulseWidthMs r.2) else r

/-- Steps 3 to 7: validate and route both field sets before the first word (43_motion_control R193). -/
def validateAndActuate (m : Mode) (p : Preset) (s : State) : Result × State :=
  let s := s.setPhase .validate
  match route s.cfg p true, route s.cfg p false with
  | some Fon, some Foff => actuate m p Fon Foff s
  | _, _ => (.invalidParameter, s)

/-- `set_mode(m)` once accepted (43_motion_control R193). -/
def setModeRun (m : Mode) (s : State) : State :=
  let s := wakeBoth (s.setFailed false)
  let r := validateAndActuate m (tableGet s.table m) s
  finish r.1 r.2

/-- `set_mode` (43_motion_control R193): a code that is no member's is refused (30_encoding R100). -/
def execSetMode (code : U32) (s : State) : Outcome State Fault Refusal :=
  .next (whenAccepted s fun s =>
    match entryOfCode s.cfg code with
    | some e => setModeRun e.mode s
    | none => refuse s)

/-- A code with bit 0 replaced (43_motion_control R197). -/
def withBit0 (code : U32) (b : Bool) : U32 := (code &&& 0xFFFFFFFE#32) ||| (BitVec.ofBool b).setWidth 32

/-- The mode after the pump went to `p`: for a paired mode the member whose code has bit 0 equal to `p`
(43_motion_control R197; a missing partner: notes/assumptions/8.md). -/
def modeWithPump (c : Config) (m : Mode) (p : Bool) : Mode :=
  if modePaired c m then
    match entryOfCode c (withBit0 (modeCode c m) p) with
    | some e => e.mode
    | none => m
  else m

/-- `toggle_pump()` (43_motion_control R197). -/
def execTogglePump (s : State) : Outcome State Fault Refusal :=
  .next (whenAccepted s fun s =>
    let p := !s.relay
    let s := driveRelay p s
    let s := s.setMirror { s.mirror with pump := p }
    respond .ok 0 (s.setMode (modeWithPump s.cfg s.mode p)))

/-- `sleep_drivers()` (43_motion_control R206). -/
def execSleepDrivers (s : State) : Outcome State Fault Refusal :=
  .next (whenAccepted s fun s => respond .ok 0 (drvSleep .icB (drvSleep .icA s)))

/-- The same field on every channel of both ICs. -/
def uniformSets (f : ChannelField) : FieldSets := ⟨⟨f, f, f, f⟩, ⟨f, f, f, f⟩⟩

/-- The field `panic_recover` drives (43_motion_control R207). -/
def panicField (c : Config) (direction enable : Bool) : ChannelField := ⟨c.panicDecay, c.panicCurrent, direction, enable⟩

/-- One all-valve phase of `panic_recover`: both ICs, results discarded (43_motion_control R207). -/
def panicPhase (F : FieldSets) (s : State) : State :=
  (drvSetAllChannels .icB F.icB (drvSetAllChannels .icA F.icA s).2).2

/-- Pulse, hold, release in one direction (43_motion_control R207). -/
def panicCycle (width : U32) (direction : Bool) (s : State) : State :=
  let s := panicPhase (uniformSets (panicField s.cfg direction true)) (s.setPhase .pulse)
  let s := hold width s
  panicPhase (uniformSets (panicField s.cfg direction false)) (s.setPhase .release)

/-- The cycles of `panic_recover`: forward then reverse for each width (43_motion_control R207). -/
def panicCycles (widths : List U32) (s : State) : State :=
  widths.foldl (fun s width => panicCycle width false (panicCycle width true s)) s

/-- `panic_recover()` (43_motion_control R207): it ends in `init()` and reports no failure. -/
def execPanicRecover (s : State) : Outcome State Fault Refusal :=
  .next (whenAccepted s fun s => respond .ok 0 (initRun (panicCycles s.cfg.panicWidths (wakeBoth s))))

/-- The mirror with one valve's direction replaced (43_motion_control R209). -/
def withDirection (p : Preset) (v : ValveId) (direction : Bool) : Preset :=
  { p with valve := valveSet p.valve v { valveGet p.valve v with direction := bit8 direction } }

/-- The release of a single valve and the mirror's update (43_motion_control R209). -/
def overrideRelease (v : ValveId) (direction : Bool) (foff : ChannelField) (s : State) : Result × State :=
  let r := drvSetSingleChannel (valveLookup s.cfg v).1 (valveLookup s.cfg v).2 foff (s.setPhase .release)
  if r.1 = .ok then (.ok, (r.2.setPhase .commit).setMirror (withDirection r.2.mirror v direction)) else r

/-- The pulse of a single valve, the hold, the release (43_motion_control R209). -/
def overridePulse (v : ValveId) (direction : Bool) (fon foff : ChannelField) (s : State) : Result × State :=
  let r := drvSetSingleChannel (valveLookup s.cfg v).1 (valveLookup s.cfg v).2 fon (s.setPhase .pulse)
  if r.1 = .ok then overrideRelease v direction foff (hold r.2.pulseWidthMs r.2) else r

/-- The mirror's target with the commanded direction. -/
def overrideTarget (s : State) (v : ValveId) (direction : Bool) : ValveTarget :=
  { valveGet s.mirror.valve v with direction := bit8 direction }

/-- `valve_override` once accepted (43_motion_control R209): current and decay come from the mirror. -/
def overrideRun (v : ValveId) (direction : Bool) (s : State) : State :=
  let s := (wakeBoth (s.setFailed false)).setPhase .validate
  let t := overrideTarget s v direction
  match targetField t true, targetField t false with
  | some fon, some foff =>
    let r := overridePulse v direction fon foff s
    finish r.1 r.2
  | _, _ => finish .invalidParameter s

/-- `valve_override` (43_motion_control R209); after a failed actuation a neighbour can go out enabled
(notes/assumptions/22.md). -/
def execValveOverride (v : ValveId) (direction : Bool) (s : State) : Outcome State Fault Refusal :=
  .next (whenAccepted s (overrideRun v direction))

end Sys2Proof.Machine
end

