-- ==== Sys2Proof/Machine/Settings.lean ====
section
/-! DEFINITION. The commands that set a parameter and the getters (43_motion_control R199 to R205). -/

namespace Sys2Proof.Machine

open Host (Outcome)

/-- `set_current` (43_motion_control R199): all 32 bits are the level. -/
def execSetCurrent (level : U32) (s : State) : Outcome State Fault Refusal :=
  .next (whenAccepted s fun s => respond (setGlobalCurrent level s).1 0 (setGlobalCurrent level s).2)

/-- `set_pulse_width_ms` (43_motion_control R200): strictly below the minimum is rejected. -/
def execSetPulseWidthMs (ms : U32) (s : State) : Outcome State Fault Refusal :=
  .next (whenAccepted s fun s =>
    if ms < s.cfg.pulseWidthMinMs then respond .invalidParameter 0 s else respond .ok 0 (s.setPulseWidth ms))

/-- `get_pulse_width_ms` (43_motion_control R201). -/
def execGetPulseWidthMs (s : State) : Outcome State Fault Refusal :=
  .next (whenAccepted s fun s => respond .ok s.pulseWidthMs s)

/-- `get_current` (43_motion_control R203). -/
def execGetCurrent (s : State) : Outcome State Fault Refusal :=
  .next (whenAccepted s fun s => respond .ok ((tableGetCurrent s).setWidth 32) s)

/-- `get_mode` (43_motion_control R204): the response value is `MODE_CODE(mode)`. -/
def execGetMode (s : State) : Outcome State Fault Refusal :=
  .next (whenAccepted s fun s => respond .ok (modeCode s.cfg s.mode) s)

/-- `get_valve_direction` (43_motion_control R205): from `mirror`; an index above 7 is refused (30_encoding R100). -/
def execGetValveDirection (index : U32) (s : State) : Outcome State Fault Refusal :=
  .next (whenAccepted s fun s =>
    if index ≤ 7#32 then respond .ok ((valveGet s.mirror.valve (valveOfIndex index)).direction.setWidth 32) s
    else refuse s)

end Sys2Proof.Machine
end

