-- ==== Sys2Proof/Machine/Dispatch.lean ====
section
/-! DEFINITION. One arm per instruction. -/

namespace Sys2Proof.Machine

def exec (i : Instr) (s : State) : Host.Outcome State Fault Refusal :=
  match i with
  | .init => Sys2Proof.Machine.execInit s
  | .setMode code => Sys2Proof.Machine.execSetMode code s
  | .togglePump => Sys2Proof.Machine.execTogglePump s
  | .setCurrent level => Sys2Proof.Machine.execSetCurrent level s
  | .getCurrent => Sys2Proof.Machine.execGetCurrent s
  | .setPulseWidthMs ms => Sys2Proof.Machine.execSetPulseWidthMs ms s
  | .getPulseWidthMs => Sys2Proof.Machine.execGetPulseWidthMs s
  | .getMode => Sys2Proof.Machine.execGetMode s
  | .getValveDirection index => Sys2Proof.Machine.execGetValveDirection index s
  | .panicRecover => Sys2Proof.Machine.execPanicRecover s
  | .sleepDrivers => Sys2Proof.Machine.execSleepDrivers s
  | .valveOverride index direction => Sys2Proof.Machine.execValveOverride index direction s
  | .wordAb ic b a => Sys2Proof.Machine.execWordAb ic b a s
  | .wordCd ic d c => Sys2Proof.Machine.execWordCd ic d c s
  | .encodeChA f => Sys2Proof.Machine.execEncodeChA f s
  | .encodeChB f => Sys2Proof.Machine.execEncodeChB f s
  | .encodeChC f => Sys2Proof.Machine.execEncodeChC f s
  | .encodeChD f => Sys2Proof.Machine.execEncodeChD f s
  | .sub6 f => Sys2Proof.Machine.execSub6 f s
  | .rsp40 r value => Sys2Proof.Machine.execRsp40 r value s

end Sys2Proof.Machine
end

