-- ==== Sys2Proof/Machine/Fetch.lean ====
section
/-! DEFINITION. Taking the next frame from the port, placing one there, and what a frame that is no instruction does. -/

namespace Sys2Proof.Machine

open Host (Outcome)

/-- A frame the decoder rejects. A host command is refused with `InvalidParameter` (30_encoding R100). A reserved word
goes out on the bus as it is and the device reacts (20_memory R75, notes/assumptions/12.md). The model's own requests
that are no row stop the machine (notes/assumptions/13.md). -/
def rejectFrame (f : Frame) (why : Reject) (s : State) : Outcome State Fault Refusal :=
  match f with
  | .cmd40 _ => .next (refuse s)
  | .word16 ic w => .next (xferAlone ic w s)
  | .enc16 _ _ | .sub6 _ | .rsp40 _ => .fault (.notARow why)

/-- The state with a frame placed before those waiting. -/
def placeFrame (f : Frame) (s : State) : State := s.setInbox (f :: s.inbox)

/-- The state with a row's word placed as the next frame; unchanged if no format has that many bits. -/
def placeTableWord (s : State) (nbits w : Nat) : State :=
  match frameOfTableWord nbits w with
  | some f => placeFrame f s
  | none => s

end Sys2Proof.Machine
end

