-- ==== Sys2Proof/Machine/Step.lean ====
section
/-! DEFINITION. One step: the next waiting frame, run to completion (00_scope R14, R16; 30_encoding R104). -/

namespace Sys2Proof.Machine

/-- The block waits while nothing has arrived (70_reset_and_hazards R261); else it takes the oldest frame and runs it to
completion, one command a step (notes/assumptions/1.md). -/
def step (s : State) : Host.Outcome State Fault Refusal :=
  match s.inbox with
  | [] => .next s
  | f :: rest =>
    match decode f with
    | .ok i => exec i (s.setInbox rest)
    | .error why => rejectFrame f why (s.setInbox rest)

/-- The state with the instruction of a table row stored where `step` takes its next one. -/
def State.withFetchWord (s : State) (nbits w : Nat) : State := placeTableWord s nbits w

end Sys2Proof.Machine
end

