-- ==== Sys2Proof/Safety.lean ====
section
/-! DEFINITION. What counts as a safe run, in the terms the statements use: the shapes of traces, the invariants of a
resting block, and the watch over the SPI bus. -/

namespace Sys2Proof.Safety

open Machine

/-! ## Shapes of traces (00_scope R12) -/

/-- The six events of one `xfer_word` (41_driver R140). -/
def xferEvents (strobeMs : U32) (ic : IcId) (w : U16) (ok : Bool) : List Event :=
  [.pin ic .cs true, .spi ic (w.extractLsb' 8 8) (w.extractLsb' 0 8) ok, .pin ic .cs false, .pin ic .strobe true,
   .delay strobeMs, .pin ic .strobe false]

/-- The units of a list of words, each answered in turn, up to and with the first that fails
(41_driver R144, 43_motion_control R192). -/
def unitEvents (strobeMs : U32) : List (IcId × U16) → List Bool → List Event
  | x :: xs, ok :: oks => xferEvents strobeMs x.1 x.2 ok ++ (if ok then unitEvents strobeMs xs oks else [])
  | _, _ => []

/-- The four words of one phase, in the order they are sent (43_motion_control R192). -/
def phaseWords (F : FieldSets) : List (IcId × U16) :=
  [(.icA, (assemble F.icA).1), (.icA, (assemble F.icA).2), (.icB, (assemble F.icB).1), (.icB, (assemble F.icB).2)]

/-- Step 1: both ICs woken, then the settle time (43_motion_control R193). -/
def wakeEvents (c : Config) : List Event := [.pin .icA .nSleep true, .pin .icB .nSleep true, .delay c.wakeupDelayMs]

/-- The eight events of `drv_reset` (41_driver R147). -/
def resetEvents (c : Config) (ic : IcId) : List Event :=
  [.pin ic .cs false, .pin ic .strobe false, .pin ic .nSleep false, .spiOff, .pin ic .nReset false,
   .delay c.resetDelayMs, .pin ic .nReset true, .spiOn]

/-- The eighteen events of the tail (43_motion_control R193 step 8). -/
def tailEvents (c : Config) : List Event :=
  resetEvents c .icA ++ resetEvents c .icB ++ [.pin .icA .nSleep false, .pin .icB .nSleep false]

/-- The six events of `drv_init` (41_driver R141). -/
def drvInitEvents (ic : IcId) : List Event :=
  [.spiCfg ic, .spiOn, .pin ic .cs false, .pin ic .strobe false, .pin ic .nReset true, .pin ic .nSleep true]

/-- The thirteen events of `init()` (43_motion_control R191). -/
def initEvents (c : Config) : List Event := drvInitEvents .icA ++ drvInitEvents .icB ++ [.relay c.relayInit]

/-- Whether an event is a transfer. -/
def isSpi : Event → Bool
  | .spi _ _ _ _ => true
  | _ => false

/-- Whether an event is a delay. -/
def isDelay : Event → Bool
  | .delay _ => true
  | _ => false

/-- What the next `n` transfers will be answered, in order (00_scope R13): the listed answers, then the free value. -/
def nextAnswers (s : State) : Nat → List Bool
  | 0 => []
  | n + 1 => drawnOk s :: nextAnswers (afterDraw s) n

/-- What one event of the trace makes of the lines, the SPI peripheral, the relay (00_scope R12) and the driven ICs
(20_memory R75). -/
def replayEvent (s : State) (e : Event) : State :=
  let s' := emit e s
  match e with
  | .pin ic line level => s'.setPin ic line level
  | .relay level => s'.setRelay level
  | .spiOff => s'.setSpiOn false
  | .spiOn => s'.setSpiOn true
  | .spi _ _ _ _ | .delay _ | .spiCfg _ => s'

/-- What a list of events makes of them, in order. -/
def replay (s : State) (events : List Event) : State := events.foldl replayEvent s

/-- One piece of `panic_recover`'s loop: an all-channel call, or a hold (43_motion_control R207). -/
inductive PanicItem where
  | call (ic : IcId) (f : ByChannel ChannelField)
  | hold (ms : U32)
  deriving DecidableEq, Repr

/-- The pieces of `panic_recover`'s loop: for each width forward, then reverse, a pulse, the hold and a release on all
eight channels (43_motion_control R207). -/
def panicItems (c : Config) : List PanicItem :=
  c.panicWidths.flatMap fun width => [true, false].flatMap fun direction =>
    let on := uniformSets (panicField c direction true)
    let off := uniformSets (panicField c direction false)
    [.call .icA on.icA, .call .icB on.icB, .hold width, .call .icA off.icA, .call .icB off.icB]

/-- The events of such pieces under given answers: a call sends its AB word and, if that went through, its CD word;
nothing stops the sequence (41_driver R144, 43_motion_control R207). -/
def panicItemEvents (strobeMs : U32) : List PanicItem → List Bool → List Event
  | .hold ms :: xs, oks => .delay ms :: panicItemEvents strobeMs xs oks
  | .call ic f :: xs, true :: ok :: oks =>
    xferEvents strobeMs ic (assemble f).1 true ++ xferEvents strobeMs ic (assemble f).2 ok ++
      panicItemEvents strobeMs xs oks
  | .call ic f :: xs, false :: oks => xferEvents strobeMs ic (assemble f).1 false ++ panicItemEvents strobeMs xs oks
  | _, _ => []

/-- The events of `panic_recover` under given answers: the wake, the loop, those of `init()` (43_motion_control R207). -/
def panicEvents (c : Config) (oks : List Bool) : List Event :=
  wakeEvents c ++ panicItemEvents c.strobeDelayMs (panicItems c) oks ++ initEvents c

/-! ## The shadow copies in the course of an actuation (43_motion_control R195) -/

/-- `committed` after the `n`-th word of a phase went through: 0 and 1 are IC_A's AB and CD, 2 and 3 are IC_B's
(41_driver R144). -/
def commitWord (F : FieldSets) (c : ByIc IcCommandSet) : Nat → ByIc IcCommandSet
  | 0 => { c with icA := commitAB c.icA F.icA }
  | 1 => { c with icA := commitCD c.icA F.icA }
  | 2 => { c with icB := commitAB c.icB F.icB }
  | 3 => { c with icB := commitCD c.icB F.icB }
  | _ => c

/-- `committed` after the first `k` of an actuation's eight words went through. -/
def committedAfter (Fon Foff : FieldSets) (c : ByIc IcCommandSet) (k : Nat) : ByIc IcCommandSet :=
  (List.range k).foldl (fun c n => if n < 4 then commitWord Fon c n else commitWord Foff c (n - 4)) c

/-- The set a fresh all-channel call puts into `pending` (41_driver R144). -/
def freshSet (f : ByChannel ChannelField) : IcCommandSet := ⟨f, (assemble f).1, (assemble f).2⟩

/-- `pending` after an actuation whose word number `k` (0 to 7) was the last one sent. -/
def pendingAfter (Fon Foff : FieldSets) (c : ByIc IcCommandSet) (k : Nat) : ByIc IcCommandSet where
  icA := if k < 4 then freshSet Fon.icA else freshSet Foff.icA
  icB := if k < 2 then c.icB else if k < 6 then freshSet Fon.icB else freshSet Foff.icB

/-- Both ICs as the tail leaves them: lines down but `nRESET`, asleep (41_driver R147). -/
def pinsAsleep : ByIc Lines := ⟨⟨false, false, true, false⟩, ⟨false, false, true, false⟩⟩

/-- Both ICs as `init()` leaves them: awake and out of reset (41_driver R141). -/
def pinsAwake : ByIc Lines := ⟨⟨false, false, true, true⟩, ⟨false, false, true, true⟩⟩

/-- Both ICs' registers as a reset leaves them (20_memory R75, the spec's general knowledge G1). -/
def devCleared : ByIc DevIc := ⟨⟨.unknown, .known 0, .known 0⟩, ⟨.unknown, .known 0, .known 0⟩⟩

/-- The result of an actuation whose transfer number `k` (0 to 7) failed: an AB word gives `TransferFailed`, a CD word
`PartialCommit` (41_driver R144, 43_motion_control R192). -/
def failureOf (k : Nat) : Result := if k % 2 = 0 then .transferFailed else .partialCommit

/-! ## A resting block -/

/-- The words of a set are those of its fields (10_state R22). -/
def wordsMatch (c : IcCommandSet) : Prop := (c.wordAB, c.wordCD) = assemble c.field

/-- The lines of an IC between two commands, whether awake or asleep (41_driver R141, R147). -/
def linesRest (l : Lines) : Prop := l.cs = false ∧ l.strobe = false ∧ l.nReset = true

/-- INV-SHAPE (42_presets R179): the table equals the defaults in every member but `current`. -/
def tableShape (s : State) : Prop :=
  s.table.map (fun x => (x.1, withCurrent 0 x.2)) = s.cfg.modes.map (fun e => (e.mode, withCurrent 0 e.preset))

/-- INV-UNIFORM (42_presets R179): one current level throughout the table. -/
def tableUniform (s : State) : Prop := ∃ level : U8, ∀ x ∈ s.table, ∀ t ∈ x.2.valve.toList, t.current = level

/-- INV-RANGE (42_presets R179): every stored target is in range. -/
def tableInRange (s : State) : Prop := ∀ x ∈ s.table, x.2.inRange = true

/-- The block between two commands: `P_IDLE` or `P_UNINIT`, no failure pending (10_state R32, R36); every shadow word
that of its fields; one table entry per mode; once initialised the lines at rest and the SPI peripheral enabled; and,
under a valid configuration, a legal pulse width and an active mode that is a member of `MODES` (10_state R40, R42). -/
structure Inv (s : State) : Prop where
  phase : s.phase = .idle ∨ s.phase = .uninit
  failed : s.failed = false
  pendingWords : wordsMatch s.pending.icA ∧ wordsMatch s.pending.icB
  committedWords : wordsMatch s.committed.icA ∧ wordsMatch s.committed.icB
  tableKeys : s.table.map (·.1) = s.cfg.modes.map (·.mode)
  lines : s.phase = .idle → linesRest s.pin.icA ∧ linesRest s.pin.icB ∧ s.spiOn = true
  width : s.cfg.Valid → s.cfg.pulseWidthMinMs ≤ s.pulseWidthMs
  mode : s.cfg.Valid → s.phase = .idle → s.mode ∈ s.cfg.modes.map (·.mode)

/-- The invariants of the preset table (42_presets R179), from the end of `init()` on. -/
structure TableInv (s : State) : Prop where
  shape : s.phase = .idle → tableShape s
  uniform : s.cfg.WfPreset → s.phase = .idle → tableUniform s
  inRange : s.cfg.WfPreset → s.phase = .idle → tableInRange s
  resting : s.phase = .idle ∨ s.phase = .uninit

/-- For a paired mode the relay is bit 0 of the mode's code (10_state R40, 42_presets R176). -/
def pumpInBitZero (s : State) : Prop :=
  s.phase = .idle → modePaired s.cfg s.mode = true → s.relay = (modeCode s.cfg s.mode).getLsbD 0

/-! ## The watch over the bus -/

/-- What an onlooker at the pins knows: the levels, whether SPI is enabled, and for each IC whether the settle time has
passed since `nSLEEP` last rose (41_driver R148). -/
structure Watch where
  lines : ByIc Lines
  spiOn : Bool
  settled : ByIc Bool

/-- A transfer to an IC is in order: its own `CS` up and the other's down (20_memory R61), the IC awake, out of reset and
settled (41_driver R148), SPI enabled (10_state R44), the word's bits 15..13 zero (30_encoding R96). -/
def Watch.allows (x : Watch) (ic : IcId) (hi : U8) : Bool :=
  let other : IcId := match ic with | .icA => .icB | .icB => .icA
  (icGet x.lines ic).cs && !(icGet x.lines other).cs && (icGet x.lines ic).nSleep && (icGet x.lines ic).nReset &&
    x.spiOn && icGet x.settled ic && decide (hi.extractLsb' 5 3 = 0#3)

/-- The watch after an event; none if a transfer was out of order. -/
def Watch.next (wakeupMs : U32) (x : Watch) : Event → Option Watch
  | .pin ic line level =>
    some { x with
      lines := icSet x.lines ic (lineSet (icGet x.lines ic) line level)
      settled := if line = .nSleep ∧ level = true ∧ (icGet x.lines ic).nSleep = false then icSet x.settled ic false
        else x.settled }
  | .spi ic hi _ _ => if x.allows ic hi then some x else none
  | .delay ms => some (if wakeupMs ≤ ms then { x with settled := ⟨true, true⟩ } else x)
  | .spiOff => some { x with spiOn := false }
  | .spiOn => some { x with spiOn := true }
  | .relay _ => some x
  | .spiCfg _ => some x

/-- The watch over a list of events. -/
def Watch.run (wakeupMs : U32) (x : Watch) : List Event → Option Watch
  | [] => some x
  | e :: es =>
    match x.next wakeupMs e with
    | some y => y.run wakeupMs es
    | none => none

/-- The watch set up at a state, nothing yet known to be settled. -/
def Watch.start (s : State) : Watch := ⟨s.pin, s.spiOn, ⟨false, false⟩⟩

/-- The twelve host commands (30_encoding R99). -/
def isCommand : Instr → Bool
  | .init | .setMode _ | .togglePump | .setCurrent _ | .getCurrent | .setPulseWidthMs _ | .getPulseWidthMs | .getMode
  | .getValveDirection _ | .panicRecover | .sleepDrivers | .valveOverride _ _ => true
  | .wordAb _ _ _ | .wordCd _ _ _ | .encodeChA _ | .encodeChB _ | .encodeChC _ | .encodeChD _ | .sub6 _ | .rsp40 _ _ =>
    false

end Sys2Proof.Safety
end

