-- ==== Sys2Proof/Certificates/Slice0/Obligations.lean ====
section
/-! DEFINITION. The statements for the provers. Each says which rule of spec/ it formalises; "log n" is
notes/assumptions/n.md. Where a statement names what the next transfers are answered (`drawnOk`, `nextAnswers`,
`spiAnswers`, `draws`) or the field `cfg`, that is how the model holds the environment's draws and the parameters (log 2,
log 3); no statement rests on a value of the free `Config.spiOk`. -/

open Sys2Proof Sys2Proof.Machine Sys2Proof.Safety

/-! ## Encoding -/

/-- Decoding what the encoder makes of a well-formed instruction gives the instruction back, every operand at every value
(30_encoding, sections 1 to 5). -/
def Obligations.DecodeOfEncodeIsTheInstruction : Prop :=
  ∀ i : Instr, i.wellFormed = true → decode (encode i) = .ok i

/-- 30_encoding R95: every word with bits 15..13 zero is one of two instructions, told apart by bit 12, and is the
encoding of exactly that one; every six bits are those of exactly one field; and the four contributions of `encode` have
the patterns the rule gives. -/
def Obligations.EveryWellFormedWordHasOneMeaning : Prop :=
  (∀ (ic : IcId) (w : U16), w &&& 0xF000#16 = 0x0000#16 →
    decode (.word16 ic w) = .ok (.wordAb ic (highSlot w) (lowSlot w)) ∧
      encode (.wordAb ic (highSlot w) (lowSlot w)) = .word16 ic w) ∧
  (∀ (ic : IcId) (w : U16), w &&& 0xF000#16 = 0x1000#16 →
    decode (.word16 ic w) = .ok (.wordCd ic (highSlot w) (lowSlot w)) ∧
      encode (.wordCd ic (highSlot w) (lowSlot w)) = .word16 ic w) ∧
  (∀ (ic : IcId) (w : U16), w &&& 0xE000#16 ≠ 0#16 → decode (.word16 ic w) = .error .reservedWord) ∧
  (∀ w : BitVec 6, (ChannelField.ofSub6 w).sub6 = w ∧ ∀ f : ChannelField, f.sub6 = w → f = ChannelField.ofSub6 w) ∧
  (∀ f : ChannelField,
    encode (.encodeChA f) = .enc16 .chA (0#10 ++ f.sub6) ∧
    encode (.encodeChB f) = .enc16 .chB (0#4 ++ f.sub6 ++ 0#6) ∧
    encode (.encodeChC f) = .enc16 .chC (0b0001000000#10 ++ f.sub6) ∧
    encode (.encodeChD f) = .enc16 .chD (0b0001#4 ++ f.sub6 ++ 0#6))

/-- 30_encoding R100: a reserved opcode, an index above 7, a must-be-zero bit, an unknown mode code: the command is
refused with `InvalidParameter`, no event, no change but the response; and ignored operand bits do not change the
command. -/
def Obligations.FramesOutsideTheDomainAreRefused : Prop :=
  (∀ (s : State) (w : BitVec 40) (rest : List Frame), s.inbox = .cmd40 w :: rest →
    ((frameHigh w).toNat ≥ 0x0C ∨
      ((frameHigh w).toNat = 0x08 ∧ (frameLow w).toNat > 7) ∨
      ((frameHigh w).toNat = 0x0B ∧ frameLow w &&& 0xFFFFFEF8#32 ≠ 0#32) ∨
      ((frameHigh w).toNat = 0x01 ∧ ∀ e ∈ s.cfg.modes, e.code ≠ frameLow w)) →
    step s = .next { s with inbox := rest, results := s.results ++ [.response .invalidParameter 0] }) ∧
  (∀ w w' : BitVec 40, frameHigh w = frameHigh w' →
    (frameHigh w).toNat ∈ [0x00, 0x02, 0x04, 0x06, 0x07, 0x09, 0x0A] → decode (.cmd40 w) = decode (.cmd40 w'))

/-- A step takes the oldest waiting frame off the port and runs the instruction it decodes to (00_scope R14, 30_encoding
R104; the port as a queue: log 4). -/
def Obligations.StepRunsTheDecodedInstruction : Prop :=
  ∀ (s : State) (f : Frame) (rest : List Frame) (i : Instr), s.inbox = f :: rest → decode f = .ok i →
    step s = exec i { s with inbox := rest }

/-- What a step does when no instruction is there (the model's choices: log 4, log 12, log 13): with nothing waiting it
waits; a reserved word goes out on the bus and nothing but that transfer happens, the state after given whole; a request
that is no row stops. -/
def Obligations.StepWithoutInstruction : Prop :=
  (∀ s : State, s.inbox = [] → step s = .next s) ∧
  (∀ (s : State) (ic : IcId) (w : U16) (rest : List Frame), s.inbox = .word16 ic w :: rest → w &&& 0xE000#16 ≠ 0#16 →
    let l := icGet s.pin ic
    let d := icGet s.dev ic
    let listens := l.nSleep && l.nReset
    step s = .next { s with
      inbox := rest
      pin := icSet s.pin ic { l with cs := false, strobe := false }
      dev := icSet s.dev ic {
        shift := if drawnOk s && listens && s.spiOn then .known w else .unknown
        regAB := if listens && !l.strobe then .unknown else d.regAB
        regCD := if listens && !l.strobe then .unknown else d.regCD }
      trace := s.trace ++ xferEvents s.cfg.strobeDelayMs ic w (drawnOk s)
      spiAnswers := s.spiAnswers.tail
      draws := s.draws + 1
      results := s.results ++ [.transfer (drawnOk s)] }) ∧
  (∀ (s : State) (ch : ChannelId) (w : U16) (rest : List Frame) (why : Reject), s.inbox = .enc16 ch w :: rest →
    decode (.enc16 ch w) = .error why → step s = .fault (.notARow why)) ∧
  (∀ (s : State) (w : BitVec 40) (rest : List Frame), s.inbox = .rsp40 w :: rest → (frameHigh w).toNat > 3 →
    step s = .fault (.notARow .unnamedResult))

/-- Words written out bit by bit from the tables of 30_encoding decode to the instruction they stand for. -/
def Obligations.WrittenOutWordsDecode : Prop :=
  decode (.cmd40 0x00DEADBEEF) = .ok .init ∧
  decode (.cmd40 0x0100000003) = .ok (.setMode 3) ∧
  decode (.cmd40 0x05FFFFFFFF) = .ok (.setPulseWidthMs 0xFFFFFFFF) ∧
  decode (.cmd40 0x0B00000105) = .ok (.valveOverride .v5 true) ∧
  decode (.word16 .icB 0b0000110111110101) = .ok (.wordAb .icB ⟨true, 5, true, true⟩ ⟨true, 5, false, true⟩) ∧
  decode (.word16 .icA 0b0001110100110110) = .ok (.wordCd .icA ⟨true, 5, false, false⟩ ⟨true, 5, true, false⟩) ∧
  decode (.enc16 .chD 0b0001111101000000) = .ok (.encodeChD ⟨true, 7, false, true⟩) ∧
  decode (.sub6 0b101110) = .ok (.sub6 ⟨true, 3, true, false⟩) ∧
  decode (.rsp40 0x0300000000) = .ok (.rsp40 .partialCommit 0)

/-! ## The codec -/

/-- 40_codec R120: in range, the field with the four values; else `InvalidParameter` and the old record. -/
def Obligations.FieldConstructorChecksRanges : Prop :=
  ∀ (decay current phase enable : U8) (out : ChannelField),
    ((decay.toNat ≤ 1 ∧ current.toNat ≤ 7 ∧ phase.toNat ≤ 1 ∧ enable.toNat ≤ 1) →
      ∃ f, mkField decay current phase enable out = (.ok, f) ∧ f.decay.toNat = decay.toNat ∧
        f.current.toNat = current.toNat ∧ f.phase.toNat = phase.toNat ∧ f.enable.toNat = enable.toNat) ∧
    (¬ (decay.toNat ≤ 1 ∧ current.toNat ≤ 7 ∧ phase.toNat ≤ 1 ∧ enable.toNat ≤ 1) →
      mkField decay current phase enable out = (.invalidParameter, out))

/-- 40_codec R121: base = e + 2p + 4c + 32d, times 64 for ChB and ChD, plus 0x1000 for ChC and ChD; bits 15..13 zero. -/
def Obligations.EncodedFieldIsItsNumber : Prop :=
  ∀ (ch : ChannelId) (f : ChannelField),
    (encodeField ch f).toNat =
      (match ch with | .chA | .chC => 1 | .chB | .chD => 64) *
          (f.enable.toNat + 2 * f.phase.toNat + 4 * f.current.toNat + 32 * f.decay.toNat) +
        (match ch with | .chA | .chB => 0 | .chC | .chD => 0x1000) ∧
    (encodeField ch f).toNat < 0x2000

/-- The round trips of 40_codec R123 (an inference the spec marks as its own, from R121 and R122). -/
def Obligations.CodecRoundTrip : Prop :=
  (∀ (ch : ChannelId) (f : ChannelField), decodeField ch (encodeField ch f) = f) ∧
  (∀ (ch : ChannelId) (w : U16), encodeField ch (decodeField ch w) =
    (w &&& slotMask ch) ||| (match ch with | .chA | .chB => 0x0000#16 | .chC | .chD => 0x1000#16)) ∧
  (∀ (ch : ChannelId) (f g : ChannelField), encodeField ch f = encodeField ch g → f = g)

/-- 40_codec R124: the two words hold the four fields in their slots, bit 12 the word, bits 15..13 zero. -/
def Obligations.AssembledWordsHoldTheFields : Prop :=
  ∀ f : ByChannel ChannelField,
    (assemble f).1 = 0b0000#4 ++ f.chB.sub6 ++ f.chA.sub6 ∧ (assemble f).2 = 0b0001#4 ++ f.chD.sub6 ++ f.chC.sub6 ∧
    decodeField .chA (assemble f).1 = f.chA ∧ decodeField .chB (assemble f).1 = f.chB ∧
    decodeField .chC (assemble f).2 = f.chC ∧ decodeField .chD (assemble f).2 = f.chD

/-- 40_codec R125: the channel's slot holds the new field, the other slot and bits 15..13 are kept, bit 12 is or-ed. -/
def Obligations.MergeReplacesOneSlot : Prop :=
  ∀ (ch : ChannelId) (old : U16) (f : ChannelField),
    decodeField ch (merge ch old f) = f ∧
    (match ch with
      | .chA | .chC => highSlot (merge ch old f) = highSlot old
      | .chB | .chD => lowSlot (merge ch old f) = lowSlot old) ∧
    (merge ch old f).extractLsb' 13 3 = old.extractLsb' 13 3 ∧
    (merge ch old f).getLsbD 12 = (old.getLsbD 12 || (match ch with | .chA | .chB => false | .chC | .chD => true))

/-- `encode` run alone answers the word of 30_encoding R95's patterns and changes nothing else (40_codec R121; run alone:
log 5). -/
def Obligations.EncodeActsAnswerTheWord : Prop :=
  ∀ (f : ChannelField) (s : State),
    exec (.encodeChA f) s = .next { s with results := s.results ++ [.word (0#10 ++ f.sub6)] } ∧
    exec (.encodeChB f) s = .next { s with results := s.results ++ [.word (0#4 ++ f.sub6 ++ 0#6)] } ∧
    exec (.encodeChC f) s = .next { s with results := s.results ++ [.word (0b0001000000#10 ++ f.sub6)] } ∧
    exec (.encodeChD f) s = .next { s with results := s.results ++ [.word (0b0001#4 ++ f.sub6 ++ 0#6)] }

/-- Six bits are one field, each bit where 30_encoding R91 puts it (bit 0 enable, bit 1 phase, bits 4..2 current, bit 5
decay); the act run alone answers that field and changes nothing else (run alone: log 5). -/
def Obligations.SubFieldActAnswersTheField : Prop :=
  ∀ (w : BitVec 6) (s : State),
    let f : ChannelField := ⟨w.getLsbD 5, w.extractLsb' 2 3, w.getLsbD 1, w.getLsbD 0⟩
    decode (.sub6 w) = .ok (.sub6 f) ∧ exec (.sub6 f) s = .next { s with results := s.results ++ [.field f] }

/-- A response run alone goes out at the upstream port and changes nothing else; its frame has the result's code in bits
39..32 and the value in bits 31..0 (30_encoding R98, 60_exceptions R231; run alone: log 5). -/
def Obligations.ResponseActPlacesTheFrame : Prop :=
  (∀ (r : Result) (v : U32) (s : State),
    exec (.rsp40 r v) s = .next { s with results := s.results ++ [.response r v] } ∧
    (responseFrame r v).extractLsb' 32 8 = r.code ∧ (responseFrame r v).extractLsb' 0 32 = v) ∧
  Result.ok.code = 0 ∧ Result.invalidParameter.code = 1 ∧ Result.transferFailed.code = 2 ∧ Result.partialCommit.code = 3

/-! ## The device and the driver -/

/-- The reaction of an IC to each kind of event that names it, those that leave it as it is included, and of the other IC to
none (20_memory R75; its two clauses on nRESET and nSLEEP are the spec's general knowledge, log 16). -/
def Obligations.DeviceReactsToEvents : Prop :=
  (∀ (d : DevIc) (l : Lines) (ic : IcId) (hi lo : U8), l.cs = true → l.nSleep = true → l.nReset = true →
    d.react l true (.spi ic hi lo true) = { d with shift := .known (hi ++ lo) }) ∧
  (∀ (d : DevIc) (l : Lines) (on ok : Bool) (ic : IcId) (hi lo : U8),
    (ok = false ∨ l.cs = false ∨ l.nSleep = false ∨ l.nReset = false ∨ on = false) →
    d.react l on (.spi ic hi lo ok) = { d with shift := .unknown }) ∧
  (∀ (d : DevIc) (l : Lines) (on : Bool) (ic : IcId), (l.strobe = true ∨ l.nSleep = false ∨ l.nReset = false) →
    d.react l on (.pin ic .strobe true) = d) ∧
  (∀ (d : DevIc) (l : Lines) (on : Bool) (ic : IcId), l.strobe = false → l.nSleep = true → l.nReset = true →
    (∀ w : U16, d.shift = .known w → w.extractLsb' 13 3 = 0#3 → w.getLsbD 12 = false →
      d.react l on (.pin ic .strobe true) = { d with regAB := .known (w.extractLsb' 0 12) }) ∧
    (∀ w : U16, d.shift = .known w → w.extractLsb' 13 3 = 0#3 → w.getLsbD 12 = true →
      d.react l on (.pin ic .strobe true) = { d with regCD := .known (w.extractLsb' 0 12) }) ∧
    ((d.shift = .unknown ∨ ∃ w : U16, d.shift = .known w ∧ w.extractLsb' 13 3 ≠ 0#3) →
      d.react l on (.pin ic .strobe true) = { d with regAB := .unknown, regCD := .unknown })) ∧
  (∀ (d : DevIc) (l : Lines) (on : Bool) (ic : IcId),
    d.react l on (.pin ic .nReset false) = ⟨.unknown, .known 0, .known 0⟩ ∧
    d.react l on (.pin ic .nReset true) = d ∧ d.react l on (.pin ic .strobe false) = d ∧ d.react l on (.spiCfg ic) = d ∧
    ∀ level, d.react l on (.pin ic .nSleep level) = d ∧ d.react l on (.pin ic .cs level) = d) ∧
  (∀ (e : Event) (s : State) (ic : IcId), eventIc e ≠ some ic → icGet (devAfter e s) ic = icGet s.dev ic)

/-- The outputs of 20_memory R76: off when asleep, in reset or not enabled; else driven as the slot's bits say; unknown
with the register (asleep and unknown at once: log 15). -/
def Obligations.BridgeOutputsFollowTheSlot : Prop :=
  ∀ (s : State) (ic : IcId),
    (((icGet s.pin ic).nSleep = false ∨ (icGet s.pin ic).nReset = false) → ∀ ch, bridgeOutput s ic ch = .off) ∧
    ((icGet s.pin ic).nSleep = true → (icGet s.pin ic).nReset = true →
      ((icGet s.dev ic).regAB = .unknown → bridgeOutput s ic .chA = .unknown ∧ bridgeOutput s ic .chB = .unknown) ∧
      ((icGet s.dev ic).regCD = .unknown → bridgeOutput s ic .chC = .unknown ∧ bridgeOutput s ic .chD = .unknown) ∧
      (∀ high low : ChannelField, (icGet s.dev ic).regAB = .known (high.sub6 ++ low.sub6) →
        bridgeOutput s ic .chA = (if low.enable then .driven low.phase low.current low.decay else .off) ∧
        bridgeOutput s ic .chB = (if high.enable then .driven high.phase high.current high.decay else .off)) ∧
      (∀ high low : ChannelField, (icGet s.dev ic).regCD = .known (high.sub6 ++ low.sub6) →
        bridgeOutput s ic .chC = (if low.enable then .driven low.phase low.current low.decay else .off) ∧
        bridgeOutput s ic .chD = (if high.enable then .driven high.phase high.current high.decay else .off)))

/-- 41_driver R140: one unit of six events, high byte first, the strobe pulsed whether or not the transfer succeeded,
both lines left at 0, nothing else of the block changed; and what the IC makes of it (20_memory R75): asleep or in reset
it keeps its registers; awake, a word it got goes to the register bit 12 names, and a failed transfer or a reserved word
leaves both unknown; with the strobe already up there is no edge. -/
def Obligations.TransferUnit : Prop :=
  ∀ (ic : IcId) (w : U16) (s : State),
    let l := icGet s.pin ic
    let d := icGet s.dev ic
    let d' := icGet (xferWord ic w s).2.dev ic
    (xferWord ic w s).1 = drawnOk s ∧
    (xferWord ic w s).2 = { s with
      pin := icSet s.pin ic { l with cs := false, strobe := false }
      dev := icSet s.dev ic d'
      trace := s.trace ++ [.pin ic .cs true, .spi ic (w.extractLsb' 8 8) (w.extractLsb' 0 8) (drawnOk s),
        .pin ic .cs false, .pin ic .strobe true, .delay s.cfg.strobeDelayMs, .pin ic .strobe false]
      spiAnswers := s.spiAnswers.tail
      draws := s.draws + 1 } ∧
    ((l.nSleep = false ∨ l.nReset = false) → d' = { d with shift := .unknown }) ∧
    (l.nSleep = true → l.nReset = true → l.strobe = true → d'.regAB = d.regAB ∧ d'.regCD = d.regCD) ∧
    (l.nSleep = true → l.nReset = true → l.strobe = false →
      (s.spiOn = true → drawnOk s = true → w.extractLsb' 13 3 = 0#3 →
        d' = (if w.getLsbD 12 then { shift := .known w, regAB := d.regAB, regCD := .known (w.extractLsb' 0 12) }
          else { shift := .known w, regAB := .known (w.extractLsb' 0 12), regCD := d.regCD })) ∧
      ((s.spiOn = false ∨ drawnOk s = false ∨ w.extractLsb' 13 3 ≠ 0#3) → d'.regAB = .unknown ∧ d'.regCD = .unknown))

/-- `WORD_AB` and `WORD_CD` run alone (30_encoding R92, R93; 20_memory R75; run alone: log 5), in every state: at an IC
that listens a successful transfer sets exactly the named register, low slot first, and a failed one loses both; an IC
asleep or in reset, or whose strobe is up already, keeps its registers. The rest is the frame. -/
def Obligations.WordActsReachTheirRegister : Prop :=
  ∀ (ic : IcId) (high low : ChannelField) (s : State),
    let l := icGet s.pin ic
    let d := icGet s.dev ic
    let wordAB : U16 := 0b0000#4 ++ high.sub6 ++ low.sub6
    let wordCD : U16 := 0b0001#4 ++ high.sub6 ++ low.sub6
    let done : U16 → DevIc → State := fun w d' => { s with
      pin := icSet s.pin ic { l with cs := false, strobe := false }
      dev := icSet s.dev ic d'
      trace := s.trace ++ xferEvents s.cfg.strobeDelayMs ic w (drawnOk s)
      spiAnswers := s.spiAnswers.tail
      draws := s.draws + 1
      results := s.results ++ [.transfer (drawnOk s)] }
    ((l.nSleep = false ∨ l.nReset = false) →
      exec (.wordAb ic high low) s = .next (done wordAB { d with shift := .unknown }) ∧
      exec (.wordCd ic high low) s = .next (done wordCD { d with shift := .unknown })) ∧
    (l.nSleep = true → l.nReset = true → l.strobe = true →
      exec (.wordAb ic high low) s =
        .next (done wordAB { d with shift := if drawnOk s && s.spiOn then .known wordAB else .unknown }) ∧
      exec (.wordCd ic high low) s =
        .next (done wordCD { d with shift := if drawnOk s && s.spiOn then .known wordCD else .unknown })) ∧
    (l.nSleep = true → l.nReset = true → l.strobe = false →
      (s.spiOn = true → drawnOk s = true →
        exec (.wordAb ic high low) s =
          .next (done wordAB { d with shift := .known wordAB, regAB := .known (high.sub6 ++ low.sub6) }) ∧
        exec (.wordCd ic high low) s =
          .next (done wordCD { d with shift := .known wordCD, regCD := .known (high.sub6 ++ low.sub6) })) ∧
      ((s.spiOn = false ∨ drawnOk s = false) →
        exec (.wordAb ic high low) s = .next (done wordAB ⟨.unknown, .unknown, .unknown⟩) ∧
        exec (.wordCd ic high low) s = .next (done wordCD ⟨.unknown, .unknown, .unknown⟩)))

/-- 41_driver R141: what `drv_init` writes and the six events it emits. -/
def Obligations.DriverInit : Prop :=
  ∀ (ic : IcId) (s : State),
    drvInit ic s = { s with
      pin := icSet s.pin ic ⟨false, false, true, true⟩
      spiOn := true
      pending := icSet s.pending ic ⟨⟨.zero, .zero, .zero, .zero⟩, 0x0000, 0x1000⟩
      committed := icSet s.committed ic ⟨⟨.zero, .zero, .zero, .zero⟩, 0x0000, 0x1000⟩
      trace := s.trace ++ [.spiCfg ic, .spiOn, .pin ic .cs false, .pin ic .strobe false, .pin ic .nReset true,
        .pin ic .nSleep true] }

/-- 41_driver R145, R146: `drv_sleep` and `drv_wake` drive the one line to the named level and touch nothing else. The last
clause, that asleep every output of the IC is off whatever its registers hold, is the model's: log 15, on the spec's
general knowledge of `nSLEEP`, log 16. -/
def Obligations.DriverSleepAndWake : Prop :=
  ∀ (ic : IcId) (s : State),
    drvSleep ic s = { s with
      pin := icSet s.pin ic { icGet s.pin ic with nSleep := false }, trace := s.trace ++ [.pin ic .nSleep false] } ∧
    drvWake ic s = { s with
      pin := icSet s.pin ic { icGet s.pin ic with nSleep := true }, trace := s.trace ++ [.pin ic .nSleep true] } ∧
    ∀ ch, bridgeOutput (drvSleep ic s) ic ch = .off

/-- 41_driver R147: the eight events, the lines and `spi_on` they leave, the IC's registers cleared (the spec's general
knowledge, log 16), `pending` and `committed` not written. -/
def Obligations.DriverReset : Prop :=
  ∀ (ic : IcId) (s : State),
    drvReset ic s = { s with
      pin := icSet s.pin ic ⟨false, false, true, false⟩
      spiOn := true
      dev := icSet s.dev ic ⟨.unknown, .known 0, .known 0⟩
      trace := s.trace ++ [.pin ic .cs false, .pin ic .strobe false, .pin ic .nSleep false, .spiOff,
        .pin ic .nReset false, .delay s.cfg.resetDelayMs, .pin ic .nReset true, .spiOn] }

/-- 41_driver R143: `pending` becomes the committed set with the one field and its merged word; exactly that word is sent;
on success `committed` becomes `pending`, on failure it is unchanged; the other word and the other IC are untouched; pins
and device as the transfer of that one word leaves them. -/
def Obligations.SingleChannelCommit : Prop :=
  ∀ (ic : IcId) (ch : ChannelId) (f : ChannelField) (s : State),
    let old := icGet s.committed ic
    let attempt : IcCommandSet := match ch with
      | .chA | .chB => ⟨chSet old.field ch f, merge ch old.wordAB f, old.wordCD⟩
      | .chC | .chD => ⟨chSet old.field ch f, old.wordAB, merge ch old.wordCD f⟩
    let w : U16 := match ch with | .chA | .chB => attempt.wordAB | .chC | .chD => attempt.wordCD
    let r := drvSetSingleChannel ic ch f s
    r.1 = (if drawnOk s then .ok else .transferFailed) ∧
    r.2 = { s with
      pending := icSet s.pending ic attempt
      committed := if drawnOk s then icSet s.committed ic attempt else s.committed
      pin := icSet s.pin ic { icGet s.pin ic with cs := false, strobe := false }
      dev := (xferWord ic w s).2.dev
      trace := s.trace ++ xferEvents s.cfg.strobeDelayMs ic w (drawnOk s)
      spiAnswers := s.spiAnswers.tail
      draws := s.draws + 1 }

/-- 41_driver R144: the three outcomes. AB fails: `TransferFailed`, one unit, `committed` unchanged. CD fails:
`PartialCommit`, two units, `committed` has the AB word and its two fields. Both succeed: `Ok`, the whole set. `pending`
is the fresh set each time; pins and device as the transfers sent leave them. -/
def Obligations.AllChannelCommit : Prop :=
  ∀ (ic : IcId) (f : ByChannel ChannelField) (s : State),
    let old := icGet s.committed ic
    let ab := (assemble f).1
    let cd := (assemble f).2
    let afterAB := (xferWord ic ab s).2
    let strobe := s.cfg.strobeDelayMs
    let after : IcCommandSet → List Event → Nat → ByIc DevIc → State := fun c es n d => { s with
      pending := icSet s.pending ic ⟨f, ab, cd⟩
      committed := icSet s.committed ic c
      pin := icSet s.pin ic { icGet s.pin ic with cs := false, strobe := false }
      dev := d
      trace := s.trace ++ es
      spiAnswers := s.spiAnswers.drop n
      draws := s.draws + n }
    (nextAnswers s 1 = [false] → drvSetAllChannels ic f s =
      (.transferFailed, after old (xferEvents strobe ic ab false) 1 afterAB.dev)) ∧
    (nextAnswers s 2 = [true, false] → drvSetAllChannels ic f s =
      (.partialCommit, after ⟨{ old.field with chA := f.chA, chB := f.chB }, ab, old.wordCD⟩
        (xferEvents strobe ic ab true ++ xferEvents strobe ic cd false) 2 (xferWord ic cd afterAB).2.dev)) ∧
    (nextAnswers s 2 = [true, true] → drvSetAllChannels ic f s =
      (.ok, after ⟨f, ab, cd⟩
        (xferEvents strobe ic ab true ++ xferEvents strobe ic cd true) 2 (xferWord ic cd afterAB).2.dev))

/-- INV-COMMITTED (10_state R24, an inference the spec marks as its own): at an IC that listens, a word that
`drv_set_all_channels` or `drv_set_single_channel` got through stands both in `committed` and, its payload, in the device
register. -/
def Obligations.CommittedMatchesTheDevice : Prop :=
  ∀ (ic : IcId) (s : State), (icGet s.pin ic).nSleep = true → (icGet s.pin ic).nReset = true →
    (icGet s.pin ic).strobe = false → s.spiOn = true →
    (∀ f : ByChannel ChannelField, (drvSetAllChannels ic f s).1 = .ok →
      let t := (drvSetAllChannels ic f s).2
      (icGet t.dev ic).regAB = .known ((icGet t.committed ic).wordAB.extractLsb' 0 12) ∧
      (icGet t.dev ic).regCD = .known ((icGet t.committed ic).wordCD.extractLsb' 0 12)) ∧
    (∀ (ch : ChannelId) (f : ChannelField), wordsMatch (icGet s.committed ic) → (drvSetSingleChannel ic ch f s).1 = .ok →
      let t := (drvSetSingleChannel ic ch f s).2
      match ch with
      | .chA | .chB => (icGet t.dev ic).regAB = .known ((icGet t.committed ic).wordAB.extractLsb' 0 12) ∧
          (icGet t.dev ic).regCD = (icGet s.dev ic).regCD
      | .chC | .chD => (icGet t.dev ic).regCD = .known ((icGet t.committed ic).wordCD.extractLsb' 0 12) ∧
          (icGet t.dev ic).regAB = (icGet s.dev ic).regAB)

/-! ## Presets -/

/-- 42_presets R171: `route` fails exactly when some target is out of range; else every valve's channel holds its
direction as the phase, its current and decay, and the caller's enable, and with a bijective map every channel of both
ICs is some valve's. -/
def Obligations.RouteExpandsThePreset : Prop :=
  ∀ (c : Config) (p : Preset) (enable : Bool),
    (route c p enable = none ↔ ∃ v, let t := valveGet p.valve v
      t.direction.toNat > 1 ∨ t.current.toNat > 7 ∨ t.decay.toNat > 1) ∧
    (c.valveMap.toList.Nodup → ∀ F, route c p enable = some F →
      (∀ v, let t := valveGet p.valve v
        let f := chGet (icGet F (valveLookup c v).1) (valveLookup c v).2
        f.enable = enable ∧ f.phase.toNat = t.direction.toNat ∧ f.current.toNat = t.current.toNat ∧
          f.decay.toNat = t.decay.toNat) ∧
      (∀ ic ch, ∃ v, valveLookup c v = (ic, ch)))

/-- The pump rule of 42_presets R176: for a paired mode bit 0 of its code, else the stored flag; and a paired member's
partner is a paired member whose code differs in bit 0 only. -/
def Obligations.PumpOfPairedModes : Prop :=
  (∀ (c : Config) (m : Mode) (p : Preset),
    (modePaired c m = true → pumpFor c m p = (modeCode c m).getLsbD 0) ∧
    (modePaired c m = false → pumpFor c m p = p.pump)) ∧
  (∀ (c : Config) (m : Mode), c.Valid → modePaired c m = true →
    ∃ m', modePaired c m' = true ∧ modeCode c m' = modeCode c m ^^^ 1#32 ∧
      (modeCode c m').getLsbD 0 = !(modeCode c m).getLsbD 0 ∧
      ∀ n, 1 ≤ n → (modeCode c m').getLsbD n = (modeCode c m).getLsbD n)

/-! ## Commands -/

/-- 43_motion_control R191 and 42_presets R174: `init()` is accepted in every state and writes everything but the pulse
width and the device; its thirteen events in order. -/
def Obligations.InitResetsTheBlock : Prop :=
  ∀ s : State, exec .init s = .next { s with
    table := s.cfg.modes.map fun e => (e.mode, e.preset)
    pending := ⟨⟨⟨.zero, .zero, .zero, .zero⟩, 0x0000, 0x1000⟩, ⟨⟨.zero, .zero, .zero, .zero⟩, 0x0000, 0x1000⟩⟩
    committed := ⟨⟨⟨.zero, .zero, .zero, .zero⟩, 0x0000, 0x1000⟩, ⟨⟨.zero, .zero, .zero, .zero⟩, 0x0000, 0x1000⟩⟩
    pin := ⟨⟨false, false, true, true⟩, ⟨false, false, true, true⟩⟩
    spiOn := true
    relay := s.cfg.relayInit
    mode := .rest
    mirror := presetDefault s.cfg .rest
    failed := false
    phase := .idle
    trace := s.trace ++ [.spiCfg .icA, .spiOn, .pin .icA .cs false, .pin .icA .strobe false, .pin .icA .nReset true,
      .pin .icA .nSleep true, .spiCfg .icB, .spiOn, .pin .icB .cs false, .pin .icB .strobe false, .pin .icB .nReset true,
      .pin .icB .nSleep true, .relay s.cfg.relayInit]
    results := s.results ++ [.response .ok 0] }

/-- 43_motion_control R192: one phase sends IC_A AB, IC_A CD, IC_B AB, IC_B CD, stops at the first failure with that
call's code, and leaves IC_B alone when IC_A failed. -/
def Obligations.PhaseAddressesIcAFirst : Prop :=
  ∀ (F : FieldSets) (s : State),
    (nextAnswers s 4 = List.replicate 4 true →
      (both F s).1 = .ok ∧
      (both F s).2.trace =
        s.trace ++ unitEvents s.cfg.strobeDelayMs (phaseWords F) [true, true, true, true] ∧
      (both F s).2.committed = ⟨freshSet F.icA, freshSet F.icB⟩) ∧
    (∀ k, k < 4 → nextAnswers s (k + 1) = List.replicate k true ++ [false] →
      (both F s).1 = failureOf k ∧
      (both F s).2.trace =
        s.trace ++ unitEvents s.cfg.strobeDelayMs (phaseWords F) (List.replicate k true ++ [false]) ∧
      (both F s).2.committed = (List.range k).foldl (commitWord F) s.committed ∧
      (k < 2 → (both F s).2.pending.icB = s.pending.icB))

/-- 43_motion_control R193: `set_mode` to a member of `MODES`. All eight transfers succeed: relay, mirror and mode are
committed. Validation fails: `InvalidParameter` and no transfer. Transfer `k` fails: its code, nothing committed, no later
step but the tail. The state after is given whole each time but for the device registers, on which R193 says nothing
(`BridgesOffAfterActuation` does). -/
def Obligations.SetModeFollowsItsSteps : Prop :=
  ∀ (s : State) (code : U32) (e : ModeEntry), s.phase = .idle → entryOfCode s.cfg code = some e →
    let p := tableGet s.table e.mode
    let strobe := s.cfg.strobeDelayMs
    let rested : ByIc DevIc → State := fun dev => { s with
      pin := pinsAsleep, spiOn := true, dev := dev, phase := .idle, failed := false }
    (route s.cfg p true = none → ∃ dev, exec (.setMode code) s = .next { rested dev with
      trace := s.trace ++ wakeEvents s.cfg ++ tailEvents s.cfg
      results := s.results ++ [.response .invalidParameter 0] }) ∧
    (∀ Fon Foff : FieldSets, route s.cfg p true = some Fon → route s.cfg p false = some Foff →
      (nextAnswers s 8 = List.replicate 8 true → ∃ dev, exec (.setMode code) s = .next { rested dev with
        relay := pumpFor s.cfg e.mode p
        mirror := p
        mode := e.mode
        pending := ⟨freshSet Foff.icA, freshSet Foff.icB⟩
        committed := ⟨freshSet Foff.icA, freshSet Foff.icB⟩
        trace := s.trace ++ wakeEvents s.cfg ++ unitEvents strobe (phaseWords Fon) [true, true, true, true] ++
          [.delay s.pulseWidthMs] ++ unitEvents strobe (phaseWords Foff) [true, true, true, true] ++
          [.relay (pumpFor s.cfg e.mode p)] ++ tailEvents s.cfg
        spiAnswers := s.spiAnswers.drop 8
        draws := s.draws + 8
        results := s.results ++ [.response .ok 0] }) ∧
      (∀ k, k < 8 → nextAnswers s (k + 1) = List.replicate k true ++ [false] →
        ∃ dev, exec (.setMode code) s = .next { rested dev with
        pending := pendingAfter Fon Foff s.pending k
        committed := committedAfter Fon Foff s.committed k
        trace := s.trace ++ wakeEvents s.cfg ++
          unitEvents strobe (phaseWords Fon) (List.replicate (min k 4) true ++ [false]) ++
          (if k < 4 then [] else .delay s.pulseWidthMs ::
            unitEvents strobe (phaseWords Foff) (List.replicate (k - 4) true ++ [false])) ++ tailEvents s.cfg
        spiAnswers := s.spiAnswers.drop (k + 1)
        draws := s.draws + (k + 1)
        results := s.results ++ [.response (failureOf k) 0] }))

/-- The counts of 43_motion_control R194 (an inference the spec marks as its own): 71 events of which 8 transfers on
success; 3 + 6k (+ 1 if k > 4) + 18 when the k-th unit fails; 21 and no transfer when validation fails, whatever the
transfers would be answered. -/
def Obligations.SetModeTraceCounts : Prop :=
  ∀ (s t : State) (code : U32) (e : ModeEntry), s.phase = .idle → entryOfCode s.cfg code = some e →
    exec (.setMode code) s = .next t →
    ((tableGet s.table e.mode).inRange = true →
      (nextAnswers s 8 = List.replicate 8 true →
        t.trace.length = s.trace.length + 71 ∧ t.trace.countP isSpi = s.trace.countP isSpi + 8) ∧
      (∀ k, 1 ≤ k → k ≤ 8 → nextAnswers s k = List.replicate (k - 1) true ++ [false] →
        t.trace.length = s.trace.length + 3 + 6 * k + (if k > 4 then 1 else 0) + 18 ∧
        t.trace.countP isSpi = s.trace.countP isSpi + k)) ∧
    ((tableGet s.table e.mode).inRange = false →
      t.trace.length = s.trace.length + 21 ∧ t.trace.countP isSpi = s.trace.countP isSpi)

/-- 43_motion_control R197: the relay inverted, `mirror.pump` with it, a paired mode replaced by the member whose code has
bit 0 equal to the new relay, an unpaired mode kept; one event, no valve touched. -/
def Obligations.TogglePumpFlipsThePump : Prop :=
  ∀ s : State, s.phase = .idle → s.cfg.Valid →
    ∃ m, exec .togglePump s = .next { s with
        relay := !s.relay
        mirror := { s.mirror with pump := !s.relay }
        mode := m
        trace := s.trace ++ [.relay (!s.relay)]
        results := s.results ++ [.response .ok 0] } ∧
      (modePaired s.cfg s.mode = false → m = s.mode) ∧
      (modePaired s.cfg s.mode = true →
        modePaired s.cfg m = true ∧ (modeCode s.cfg m).getLsbD 0 = !s.relay ∧
        (∀ n, 1 ≤ n → (modeCode s.cfg m).getLsbD n = (modeCode s.cfg s.mode).getLsbD n) ∧
        ((modeCode s.cfg s.mode).getLsbD 0 = !s.relay → m = s.mode))

/-- Two `toggle_pump()` in a row restore relay, mirror and mode (43_motion_control R197), from a state in which the mirror
and, for a paired mode, bit 0 of the code agree with the relay. -/
def Obligations.TogglePumpTwiceRestores : Prop :=
  ∀ s : State, s.phase = .idle → s.cfg.Valid → s.mirror.pump = s.relay → pumpInBitZero s →
    ∃ t u, exec .togglePump s = .next t ∧ exec .togglePump t = .next u ∧
      u.relay = s.relay ∧ u.mirror = s.mirror ∧ u.mode = s.mode ∧
      u.trace = s.trace ++ [.relay (!s.relay), .relay s.relay]

/-- 43_motion_control R199 and 42_presets R177: a level of 0 to 7 is written to every valve of every preset of the table
and nowhere else; a level of 8 or more is rejected and nothing is written. -/
def Obligations.SetCurrentWritesTheTable : Prop :=
  ∀ (s : State) (level : U32), s.phase = .idle →
    (level.toNat < 8 → ∃ table : List (Mode × Preset), exec (.setCurrent level) s = .next { s with
        table := table, results := s.results ++ [.response .ok 0] } ∧
      table.length = s.table.length ∧
      ∀ (n : Nat) (x y : Mode × Preset), s.table[n]? = some x → table[n]? = some y →
        y.1 = x.1 ∧ y.2.pump = x.2.pump ∧ ∀ v,
          (valveGet y.2.valve v).current.toNat = level.toNat ∧
          (valveGet y.2.valve v).direction = (valveGet x.2.valve v).direction ∧
          (valveGet y.2.valve v).decay = (valveGet x.2.valve v).decay) ∧
    (8 ≤ level.toNat → exec (.setCurrent level) s = .next { s with
        results := s.results ++ [.response .invalidParameter 0] })

/-- 43_motion_control R200: stored if not below the minimum, else rejected and the old width kept. -/
def Obligations.SetPulseWidthChecksTheMinimum : Prop :=
  ∀ (s : State) (ms : U32), s.phase = .idle →
    (s.cfg.pulseWidthMinMs.toNat ≤ ms.toNat → exec (.setPulseWidthMs ms) s = .next { s with
      pulseWidthMs := ms, results := s.results ++ [.response .ok 0] }) ∧
    (ms.toNat < s.cfg.pulseWidthMinMs.toNat → exec (.setPulseWidthMs ms) s = .next { s with
      results := s.results ++ [.response .invalidParameter 0] })

/-- 43_motion_control R201, R203, R204, R205: each getter answers its value and changes nothing else; an index above 7 is
refused. That a stored byte is answered widened as it stands, in range or not, is the model's reading: log 18. -/
def Obligations.GettersAnswerAndChangeNothing : Prop :=
  ∀ s : State, s.phase = .idle →
    exec .getPulseWidthMs s = .next { s with results := s.results ++ [.response .ok s.pulseWidthMs] } ∧
    exec .getCurrent s = .next { s with
      results := s.results ++ [.response .ok ((tableGet s.table .rest).valve.v0.current.setWidth 32)] } ∧
    exec .getMode s = .next { s with results := s.results ++ [.response .ok (modeCode s.cfg s.mode)] } ∧
    (∀ v : ValveId, exec (.getValveDirection (v.bits.setWidth 32)) s = .next { s with
      results := s.results ++ [.response .ok ((valveGet s.mirror.valve v).direction.setWidth 32)] }) ∧
    (∀ index : U32, index.toNat > 7 → exec (.getValveDirection index) s = .next { s with
      results := s.results ++ [.response .invalidParameter 0] })

/-- 43_motion_control R206: the two `nSLEEP` lines driven low, nothing else. -/
def Obligations.SleepDriversDrivesTwoLines : Prop :=
  ∀ s : State, s.phase = .idle → exec .sleepDrivers s = .next { s with
    pin := ⟨{ s.pin.icA with nSleep := false }, { s.pin.icB with nSleep := false }⟩
    trace := s.trace ++ [.pin .icA .nSleep false, .pin .icB .nSleep false]
    results := s.results ++ [.response .ok 0] }

/-- 43_motion_control R207: `panic_recover()` whatever its transfers are answered. It wakes both ICs, pulses and releases all
eight channels forward and then reverse for each width (24 of them in a valid configuration; a call whose AB word failed
skips its CD word, nothing else), and ends as `init()` ends, the pulse width kept; it answers `Ok`. The ICs hold what its
events leave in them (20_memory R75); none of these events is one of the two that log 16 is about. -/
def Obligations.PanicRecoverEndsInInit : Prop :=
  ∀ s : State, s.phase = .idle →
    let events := panicEvents s.cfg (nextAnswers s (16 * s.cfg.panicWidths.length))
    exec .panicRecover s = .next { s with
      table := s.cfg.modes.map fun e => (e.mode, e.preset)
      pending := ⟨.zero, .zero⟩
      committed := ⟨.zero, .zero⟩
      pin := pinsAwake
      spiOn := true
      relay := s.cfg.relayInit
      mode := .rest
      mirror := presetDefault s.cfg .rest
      failed := false
      phase := .idle
      dev := (replay s events).dev
      trace := s.trace ++ events
      spiAnswers := s.spiAnswers.drop (events.countP isSpi)
      draws := s.draws + events.countP isSpi
      results := s.results ++ [.response .ok 0] }

/-- The counts of 43_motion_control R208 (an inference the spec marks as its own) when every transfer succeeds: 384
transfers, 433 delays and 2368 events in all, under a valid configuration, which has 24 widths. -/
def Obligations.PanicRecoverCounts : Prop :=
  ∀ s : State, s.phase = .idle → s.cfg.Valid → nextAnswers s 384 = List.replicate 384 true →
    ∃ (t : State) (events : List Event), exec .panicRecover s = .next t ∧ t.trace = s.trace ++ events ∧
      events.countP isSpi = 384 ∧ events.countP isDelay = 433 ∧ events.length = 2368

/-- 43_motion_control R209: `valve_override` in its four outcomes, the state after given whole but for the device registers
(`BridgesOffAfterActuation`). The other three channels of the IC go out as `committed` has them, whatever their enable,
which is the model's choice where a failed actuation left them enabled: log 22. `mode`, `relay` and `table` are never
written. -/
def Obligations.ValveOverrideFollowsItsSteps : Prop :=
  ∀ (s : State) (v : ValveId) (direction : Bool), s.phase = .idle →
    let target := valveGet s.mirror.valve v
    let ic := (valveLookup s.cfg v).1
    let ch := (valveLookup s.cfg v).2
    let field : Bool → ChannelField := fun enable =>
      ⟨target.decay.getLsbD 0, target.current.extractLsb' 0 3, direction, enable⟩
    let c0 := icGet s.committed ic
    let c1 := updateChannel c0 ch (field true)
    let c2 := updateChannel c1 ch (field false)
    let strobe := s.cfg.strobeDelayMs
    let rested : ByIc DevIc → State := fun dev => { s with
      pin := pinsAsleep, spiOn := true, dev := dev, phase := .idle, failed := false }
    ((target.current.toNat > 7 ∨ target.decay.toNat > 1) →
      ∃ dev, exec (.valveOverride v direction) s = .next { rested dev with
      trace := s.trace ++ wakeEvents s.cfg ++ tailEvents s.cfg
      results := s.results ++ [.response .invalidParameter 0] }) ∧
    (target.current.toNat ≤ 7 → target.decay.toNat ≤ 1 →
      (nextAnswers s 1 = [false] → ∃ dev, exec (.valveOverride v direction) s = .next { rested dev with
        pending := icSet s.pending ic c1
        trace := s.trace ++ wakeEvents s.cfg ++ xferEvents strobe ic (wordHolding c1 ch) false ++ tailEvents s.cfg
        spiAnswers := s.spiAnswers.drop 1
        draws := s.draws + 1
        results := s.results ++ [.response .transferFailed 0] }) ∧
      (nextAnswers s 2 = [true, false] → ∃ dev, exec (.valveOverride v direction) s = .next { rested dev with
        pending := icSet s.pending ic c2
        committed := icSet s.committed ic c1
        trace := s.trace ++ wakeEvents s.cfg ++ xferEvents strobe ic (wordHolding c1 ch) true ++
          [.delay s.pulseWidthMs] ++ xferEvents strobe ic (wordHolding c2 ch) false ++ tailEvents s.cfg
        spiAnswers := s.spiAnswers.drop 2
        draws := s.draws + 2
        results := s.results ++ [.response .transferFailed 0] }) ∧
      (nextAnswers s 2 = [true, true] → ∃ dev, exec (.valveOverride v direction) s = .next { rested dev with
        pending := icSet s.pending ic c2
        committed := icSet s.committed ic c2
        mirror := { s.mirror with
          valve := valveSet s.mirror.valve v { target with direction := if direction then 1 else 0 } }
        trace := s.trace ++ wakeEvents s.cfg ++ xferEvents strobe ic (wordHolding c1 ch) true ++
          [.delay s.pulseWidthMs] ++ xferEvents strobe ic (wordHolding c2 ch) true ++ tailEvents s.cfg
        spiAnswers := s.spiAnswers.drop 2
        draws := s.draws + 2
        results := s.results ++ [.response .ok 0] }))

/-- 60_exceptions R230: outside `P_IDLE` every host command but `init` is refused: `InvalidParameter`, no event, no change
but the response. -/
def Obligations.CommandsRefusedOutsideIdle : Prop :=
  ∀ (i : Instr) (s : State), isCommand i = true → i ≠ .init → s.phase ≠ .idle →
    exec i s = .next { s with results := s.results ++ [.response .invalidParameter 0] }

/-! ## The whole machine -/

/-- Every instruction completes from every state: `exec` never faults and never refuses. -/
def Obligations.EveryInstructionCompletes : Prop :=
  ∀ (i : Instr) (s : State), ∃ t, exec i s = .next t

/-- Who may write what (10_state R20, R26, R27, R40 to R43): outside the named instructions each item is unchanged; the
configuration and the waiting frames are never written by an instruction. -/
def Obligations.OnlyTheNamedInstructionsWrite : Prop :=
  ∀ (i : Instr) (s t : State), exec i s = .next t →
    t.cfg = s.cfg ∧ t.inbox = s.inbox ∧
    (t.mode ≠ s.mode → i = .init ∨ i = .togglePump ∨ i = .panicRecover ∨ ∃ code, i = .setMode code) ∧
    (t.relay ≠ s.relay → i = .init ∨ i = .togglePump ∨ i = .panicRecover ∨ ∃ code, i = .setMode code) ∧
    (t.mirror ≠ s.mirror → i = .init ∨ i = .togglePump ∨ i = .panicRecover ∨ (∃ code, i = .setMode code) ∨
      ∃ v d, i = .valveOverride v d) ∧
    (t.table ≠ s.table → i = .init ∨ i = .panicRecover ∨ ∃ level, i = .setCurrent level) ∧
    (t.pulseWidthMs ≠ s.pulseWidthMs → ∃ ms, i = .setPulseWidthMs ms) ∧
    (t.phase ≠ s.phase → i = .init) ∧
    ((t.pending ≠ s.pending ∨ t.committed ≠ s.committed ∨ t.spiOn ≠ s.spiOn) →
      i = .init ∨ i = .panicRecover ∨ (∃ code, i = .setMode code) ∨ ∃ v d, i = .valveOverride v d) ∧
    (t.pin ≠ s.pin → i = .init ∨ i = .panicRecover ∨ i = .sleepDrivers ∨ (∃ code, i = .setMode code) ∨
      (∃ v d, i = .valveOverride v d) ∨ (∃ ic b a, i = .wordAb ic b a) ∨ ∃ ic d c, i = .wordCd ic d c) ∧
    (t.failed ≠ s.failed →
      i = .init ∨ i = .panicRecover ∨ (∃ code, i = .setMode code) ∨ ∃ v d, i = .valveOverride v d) ∧
    ((t.dev ≠ s.dev ∨ t.spiAnswers ≠ s.spiAnswers ∨ t.draws ≠ s.draws) →
      i = .panicRecover ∨ (∃ code, i = .setMode code) ∨ (∃ v d, i = .valveOverride v d) ∨
      (∃ ic b a, i = .wordAb ic b a) ∨ ∃ ic d c, i = .wordCd ic d c)

/-- 60_exceptions R235: a `set_mode` or `valve_override` that does not answer `Ok` leaves mode, mirror, relay, table and
pulse width as they were, whatever the transfers answered; `failed` is cleared and the block is ready again. -/
def Obligations.FailureLeavesTheLogicalState : Prop :=
  ∀ (i : Instr) (s t : State) (r : Result) (v : U32), ((∃ code, i = .setMode code) ∨ ∃ v d, i = .valveOverride v d) →
    s.phase = .idle → s.failed = false → exec i s = .next t → t.results = s.results ++ [.response r v] → r ≠ .ok →
    t.mode = s.mode ∧ t.mirror = s.mirror ∧ t.relay = s.relay ∧ t.table = s.table ∧ t.pulseWidthMs = s.pulseWidthMs ∧
      t.phase = .idle ∧ t.failed = false

/-- `set_mode` starts afresh (60_exceptions R236): from two idle blocks that agree on the configuration, the table, the
pulse width and the answers to come, it emits the same events and gives the same response, whatever the mode, the mirror,
the relay, the shadow copies, the lines or the device held before; and if it succeeds the two agree on all of that. -/
def Obligations.SetModeDoesNotDependOnThePast : Prop :=
  ∀ (s s' : State) (code : U32), s.phase = .idle → s'.phase = .idle → s'.cfg = s.cfg → s'.table = s.table →
    s'.pulseWidthMs = s.pulseWidthMs → s'.spiAnswers = s.spiAnswers → s'.draws = s.draws →
    ∃ (t t' : State) (events : List Event) (r : Result),
      exec (.setMode code) s = .next t ∧ exec (.setMode code) s' = .next t' ∧
      t.trace = s.trace ++ events ∧ t'.trace = s'.trace ++ events ∧
      t.results = s.results ++ [.response r 0] ∧ t'.results = s'.results ++ [.response r 0] ∧
      (r = .ok → t'.mode = t.mode ∧ t'.mirror = t.mirror ∧ t'.relay = t.relay ∧ t'.pending = t.pending ∧
        t'.committed = t.committed ∧ t'.pin = t.pin ∧ t'.spiOn = t.spiOn ∧ t'.dev = t.dev)

/-- A resting block stays a resting block: every step keeps `Inv` (10_state R22, R31, R32, R36, R40 to R42). -/
def Obligations.EveryStepKeepsTheRestingBlock : Prop :=
  ∀ s t : State, Inv s → step s = .next t → Inv t

/-- The block is at rest at power-on (10_state R55; values the spec does not give: log 6). -/
def Obligations.ResetIsARestingBlock : Prop := Inv State.reset

/-- The table invariants of 42_presets R179 (an inference the spec marks as its own): every step keeps them, and `init()`
establishes them from any state. -/
def Obligations.EveryStepKeepsTheTable : Prop :=
  (∀ s t : State, TableInv s → step s = .next t → TableInv t) ∧
  (∀ s t : State, exec .init s = .next t → TableInv t)

/-- For a paired mode the relay is bit 0 of the active mode's code (10_state R40, 42_presets R176): every step keeps it,
under a valid configuration whose `RELAY_INIT` suits `Rest`. -/
def Obligations.EveryStepKeepsThePumpBit : Prop :=
  ∀ s t : State, s.cfg.Valid → (modePaired s.cfg .rest = true → s.cfg.relayInit = (modeCode s.cfg .rest).getLsbD 0) →
    (s.phase = .idle ∨ s.phase = .uninit) → pumpInBitZero s → step s = .next t → pumpInBitZero t

/-- The caller's duties are met by every host command (41_driver R148, an inference the spec marks as its own; 10_state
R44, 30_encoding R96): at each transfer its IC alone is selected, awake, out of reset and settled, SPI is enabled, and the
word's bits 15..13 are zero. -/
def Obligations.CommandsKeepTheBusInOrder : Prop :=
  ∀ (i : Instr) (s t : State), isCommand i = true → Inv s → exec i s = .next t →
    ∃ events, t.trace = s.trace ++ events ∧ ((Watch.start s).run s.cfg.wakeupDelayMs events).isSome = true

/-- After every actuation, successful or not, all eight bridges are off and both ICs asleep (60_exceptions R244; the
clearing by reset: log 16). -/
def Obligations.BridgesOffAfterActuation : Prop :=
  ∀ (s t : State) (i : Instr), s.phase = .idle →
    ((∃ code e, i = .setMode code ∧ entryOfCode s.cfg code = some e) ∨ ∃ v d, i = .valveOverride v d) →
    exec i s = .next t →
    (∀ ic ch, bridgeOutput t ic ch = .off) ∧ t.pin = pinsAsleep ∧
      ∀ ic, (icGet t.dev ic).regAB = .known 0 ∧ (icGet t.dev ic).regCD = .known 0

/-- A successful phase on two ICs that listen leaves every channel of both driven as its field says: off if not enabled,
else with the field's polarity, current and decay (20_memory R75, R76; 43_motion_control R192). -/
def Obligations.PhaseDrivesItsFields : Prop :=
  ∀ (F : FieldSets) (s : State),
    (∀ ic, (icGet s.pin ic).nSleep = true ∧ (icGet s.pin ic).nReset = true ∧ (icGet s.pin ic).strobe = false) →
    s.spiOn = true → (both F s).1 = .ok →
    ∀ ic ch, let f := chGet (icGet F ic) ch
      bridgeOutput (both F s).2 ic ch = if f.enable then .driven f.phase f.current f.decay else .off

/-- What the spec says of power-on (10_state R55, 70_reset_and_hazards R261): `P_UNINIT`, not failed, the default pulse
width, the device unknown, no event; every host command but `init` is refused, and `init` completes. -/
def Obligations.PowerOnState : Prop :=
  State.reset.phase = .uninit ∧ State.reset.failed = false ∧
  State.reset.pulseWidthMs = State.reset.cfg.pulseWidthDefaultMs ∧ State.reset.trace = [] ∧
  (∀ ic, icGet State.reset.dev ic = ⟨.unknown, .unknown, .unknown⟩) ∧
  (∀ i, isCommand i = true → i ≠ .init → exec i State.reset = .next (refuse State.reset)) ∧
  ∃ t, exec .init State.reset = .next t ∧ t.phase = .idle ∧ t.mode = .rest ∧
    t.pulseWidthMs = State.reset.cfg.pulseWidthDefaultMs ∧ t.dev = State.reset.dev

/-- The Zero pair (42_presets R173, R176; required only where one of the two is a member, log 7): both are members of `MODES`,
paired with each other, `ZeroPumpOn` has the pump on and `ZeroPumpOff` off whatever the preset's flag, and `toggle_pump`
goes from each to the other. -/
def Obligations.ZeroPairCarriesThePump : Prop :=
  ∀ c : Config, c.Valid → (Mode.zeroPumpOn ∈ c.modes.map (·.mode) ∨ Mode.zeroPumpOff ∈ c.modes.map (·.mode)) →
    Mode.zeroPumpOn ∈ c.modes.map (·.mode) ∧ Mode.zeroPumpOff ∈ c.modes.map (·.mode) ∧
    modePaired c .zeroPumpOn = true ∧ modePaired c .zeroPumpOff = true ∧
    modeCode c .zeroPumpOff = modeCode c .zeroPumpOn ^^^ 1#32 ∧
    (∀ p, pumpFor c .zeroPumpOn p = true ∧ pumpFor c .zeroPumpOff p = false) ∧
    ∀ s : State, s.cfg = c → s.phase = .idle →
      (s.mode = .zeroPumpOn → s.relay = true →
        ∃ t, exec .togglePump s = .next t ∧ t.mode = .zeroPumpOff ∧ t.relay = false) ∧
      (s.mode = .zeroPumpOff → s.relay = false →
        ∃ t, exec .togglePump s = .next t ∧ t.mode = .zeroPumpOn ∧ t.relay = true)

/-- After a `panic_recover()` whose transfers all succeeded, on a resting block, each IC holds the two words of the last
release, reverse and enable 0, and every bridge is off although the ICs stay awake (43_motion_control R207; 20_memory R75,
R76). -/
def Obligations.PanicRecoverLeavesTheBridgesOff : Prop :=
  ∀ s : State, Inv s → s.phase = .idle → s.cfg.Valid → nextAnswers s 384 = List.replicate 384 true →
    let slot : BitVec 6 := ChannelField.sub6 ⟨s.cfg.panicDecay, s.cfg.panicCurrent, false, false⟩
    ∃ t, exec .panicRecover s = .next t ∧
      (∀ ic, icGet t.dev ic = ⟨.known (0b0001#4 ++ slot ++ slot), .known (slot ++ slot), .known (slot ++ slot)⟩) ∧
      (∀ ic ch, bridgeOutput t ic ch = .off) ∧ t.pin = pinsAwake

/-- Whatever an instruction does to the lines, the SPI peripheral, the relay and the driven ICs is what the events it adds
to the trace make of them (00_scope R12, 10_state R41, R43, R44, 20_memory R75; the ICs' part in resets and sleep:
log 16). -/
def Obligations.TheEventsDetermineTheOutside : Prop :=
  ∀ (i : Instr) (s t : State), exec i s = .next t →
    ∃ events, t.trace = s.trace ++ events ∧ t.pin = (replay s events).pin ∧ t.spiOn = (replay s events).spiOn ∧
      t.relay = (replay s events).relay ∧ t.dev = (replay s events).dev
end

