-- ==== Sys2Proof/Laws/Codec.lean ====
section
/-! SUPPORT. The codec's laws: the layout of a word, the round trips, the merge (40_codec R121 to R125). -/

namespace Sys2Proof.Laws

open Machine

/-- A field as one of its 64 values; a statement about every field is checked on them. -/
theorem forall_field {p : ChannelField → Prop}
    (h : ∀ d : Bool, ∀ c : BitVec 3, ∀ ph en : Bool, p ⟨d, c, ph, en⟩) (f : ChannelField) : p f :=
  h f.decay f.current f.phase f.enable

/-- Every statement about a 3-bit number is eight cases. -/
theorem forall_bv3 {p : BitVec 3 → Prop} (h : ∀ n : Fin 8, p (BitVec.ofFin n)) (c : BitVec 3) : p c := h c.toFin

theorem sub6_ofSub6 (w : BitVec 6) : (ChannelField.ofSub6 w).sub6 = w := by
  revert w; decide

theorem ofSub6_sub6 (f : ChannelField) : ChannelField.ofSub6 f.sub6 = f := by
  revert f; apply forall_field; decide

theorem encodeField_chA (f : ChannelField) : encodeField .chA f = wordOf 0 .zero f := by
  revert f; apply forall_field; decide
theorem encodeField_chB (f : ChannelField) : encodeField .chB f = wordOf 0 f .zero := by
  revert f; apply forall_field; decide
theorem encodeField_chC (f : ChannelField) : encodeField .chC f = wordOf 1 .zero f := by
  revert f; apply forall_field; decide
theorem encodeField_chD (f : ChannelField) : encodeField .chD f = wordOf 1 f .zero := by
  revert f; apply forall_field; decide

theorem sub6_zero : ChannelField.zero.sub6 = 0#6 := by decide

theorem wordOf_or (op : BitVec 4) (h l : ChannelField) : wordOf op .zero l ||| wordOf op h .zero = wordOf op h l := by
  simp only [wordOf, sub6_zero]
  rw [BitVec.or_append, BitVec.or_append]; simp

theorem assemble_eq (f : ByChannel ChannelField) : assemble f = (wordOf 0 f.chB f.chA, wordOf 1 f.chD f.chC) := by
  simp only [assemble, encodeField_chA, encodeField_chB, encodeField_chC, encodeField_chD, wordOf_or]


/-- Bit `i` of a word, by its three parts (30_encoding R92, R93). -/
theorem getLsbD_wordOf (op : BitVec 4) (h l : ChannelField) (i : Nat) :
    (wordOf op h l).getLsbD i =
      if i < 6 then l.sub6.getLsbD i else if i < 12 then h.sub6.getLsbD (i - 6) else op.getLsbD (i - 12) := by
  unfold wordOf
  rw [BitVec.getLsbD_append, BitVec.getLsbD_append]
  by_cases h6 : i < 6
  · simp [h6]
  · by_cases h12 : i < 12
    · have e : i - 6 < 6 := by omega
      simp [h6, h12, e]
    · have e : ¬ i - 6 < 6 := by omega
      have e2 : i - 6 - 6 = i - 12 := by omega
      simp [h6, h12, e, e2]

theorem low_wordOf (op : BitVec 4) (h l : ChannelField) : (wordOf op h l).extractLsb' 0 6 = l.sub6 := by
  apply BitVec.eq_of_getLsbD_eq; intro i hi
  simp only [BitVec.getLsbD_extractLsb', getLsbD_wordOf, hi]
  simp [hi]

theorem high_wordOf (op : BitVec 4) (h l : ChannelField) : (wordOf op h l).extractLsb' 6 6 = h.sub6 := by
  apply BitVec.eq_of_getLsbD_eq; intro i hi
  have h1 : ¬ (6 + i < 6) := by omega
  have h2 : 6 + i < 12 := by omega
  have h3 : 6 + i - 6 = i := by omega
  simp only [BitVec.getLsbD_extractLsb', getLsbD_wordOf, hi, h1, h2, h3]
  simp

@[simp] theorem opcode_wordOf (op : BitVec 4) (h l : ChannelField) : (wordOf op h l).extractLsb' 12 4 = op := by
  apply BitVec.eq_of_getLsbD_eq; intro i hi
  have h1 : ¬ (12 + i < 6) := by omega
  have h2 : ¬ (12 + i < 12) := by omega
  have h3 : 12 + i - 12 = i := by omega
  simp only [BitVec.getLsbD_extractLsb', getLsbD_wordOf, hi, h1, h2, h3]
  simp

@[simp] theorem lowSlot_wordOf (op : BitVec 4) (h l : ChannelField) : lowSlot (wordOf op h l) = l := by
  rw [lowSlot, low_wordOf, ofSub6_sub6]

@[simp] theorem highSlot_wordOf (op : BitVec 4) (h l : ChannelField) : highSlot (wordOf op h l) = h := by
  rw [highSlot, high_wordOf, ofSub6_sub6]

/-- A word is its opcode and its two slots. -/
theorem wordOf_slots (w : U16) : wordOf (w.extractLsb' 12 4) (highSlot w) (lowSlot w) = w := by
  apply BitVec.eq_of_getLsbD_eq; intro i hi
  rw [getLsbD_wordOf, highSlot, lowSlot, sub6_ofSub6, sub6_ofSub6]
  simp only [BitVec.getLsbD_extractLsb']
  split
  · simp [*]
  · split
    · have h1 : i - 6 < 6 := by omega
      have h2 : 6 + (i - 6) = i := by omega
      simp [h1, h2]
    · have h1 : i - 12 < 4 := by omega
      have h2 : 12 + (i - 12) = i := by omega
      simp [h1, h2]

theorem reserved_wordOf (op : BitVec 4) (h l : ChannelField) :
    (wordOf op h l).extractLsb' 13 3 = op.extractLsb' 1 3 := by
  apply BitVec.eq_of_getLsbD_eq; intro i hi
  have h1 : ¬ (13 + i < 6) := by omega
  have h2 : ¬ (13 + i < 12) := by omega
  have h3 : 13 + i - 12 = 1 + i := by omega
  simp only [BitVec.getLsbD_extractLsb', getLsbD_wordOf, hi, h1, h2, h3]
  simp

theorem bit12_wordOf (op : BitVec 4) (h l : ChannelField) : (wordOf op h l).getLsbD 12 = op.getLsbD 0 := by
  rw [getLsbD_wordOf]; simp

/-- The payload of a word: the high slot over the low one (20_memory R61). -/
theorem payload_wordOf (op : BitVec 4) (h l : ChannelField) : (wordOf op h l).extractLsb' 0 12 = h.sub6 ++ l.sub6 := by
  apply BitVec.eq_of_getLsbD_eq; intro i hi
  simp only [BitVec.getLsbD_extractLsb', getLsbD_wordOf, hi, BitVec.getLsbD_append]
  by_cases h6 : i < 6 <;> simp [h6, hi]

/-- The two bytes of a word put together again (20_memory R64). -/
@[simp] theorem bytes_append (w : U16) : w.extractLsb' 8 8 ++ w.extractLsb' 0 8 = w := by
  apply BitVec.eq_of_getLsbD_eq; intro i hi
  simp only [BitVec.getLsbD_extractLsb', BitVec.getLsbD_append]
  by_cases h8 : i < 8
  · simp [h8]
  · have h1 : i - 8 < 8 := by omega
    have h2 : 8 + (i - 8) = i := by omega
    simp [h8, h1, h2]

/-- The top three bits of the first byte are those of the word. -/
theorem reserved_high_byte (w : U16) : (w.extractLsb' 8 8).extractLsb' 5 3 = w.extractLsb' 13 3 := by
  apply BitVec.eq_of_getLsbD_eq; intro i hi
  have h1 : 5 + i < 8 := by omega
  have h2 : 8 + (5 + i) = 13 + i := by omega
  simp only [BitVec.getLsbD_extractLsb', hi, h1, h2]; simp

theorem decodeField_low (w : U16) : decodeField .chA w = lowSlot w ∧ decodeField .chC w = lowSlot w := ⟨rfl, rfl⟩
theorem decodeField_high (w : U16) : decodeField .chB w = highSlot w ∧ decodeField .chD w = highSlot w := ⟨rfl, rfl⟩

theorem decodeField_encodeField (ch : ChannelId) (f : ChannelField) : decodeField ch (encodeField ch f) = f := by
  cases ch <;>
    simp only [encodeField_chA, encodeField_chB, encodeField_chC, encodeField_chD, decodeField_low, decodeField_high,
      lowSlot_wordOf, highSlot_wordOf]

/-- Clearing the low slot. -/
theorem clear_low (op : BitVec 4) (h l : ChannelField) : wordOf op h l &&& ~~~ 0x003F#16 = wordOf op h .zero := by
  apply BitVec.eq_of_getLsbD_eq; intro i hi
  rw [BitVec.getLsbD_and, BitVec.getLsbD_not, getLsbD_wordOf, getLsbD_wordOf, sub6_zero]
  interval_cases i <;> simp

/-- Clearing the high slot. -/
theorem clear_high (op : BitVec 4) (h l : ChannelField) : wordOf op h l &&& ~~~ 0x0FC0#16 = wordOf op .zero l := by
  apply BitVec.eq_of_getLsbD_eq; intro i hi
  rw [BitVec.getLsbD_and, BitVec.getLsbD_not, getLsbD_wordOf, getLsbD_wordOf, sub6_zero]
  interval_cases i <;> simp

theorem wordOf_or_clear (op op' : BitVec 4) (h l : ChannelField) :
    wordOf op h .zero ||| wordOf op' .zero l = wordOf (op ||| op') h l := by
  simp only [wordOf, sub6_zero]
  rw [BitVec.or_append, BitVec.or_append]; simp

theorem wordOf_or_clear' (op op' : BitVec 4) (h l : ChannelField) :
    wordOf op .zero l ||| wordOf op' h .zero = wordOf (op ||| op') h l := by
  simp only [wordOf, sub6_zero]
  rw [BitVec.or_append, BitVec.or_append]; simp

/-- `merge` replaces the channel's slot and or-s its bit 12 in (40_codec R125). -/
theorem merge_wordOf (ch : ChannelId) (op : BitVec 4) (h l f : ChannelField) :
    merge ch (wordOf op h l) f =
      match ch with
      | .chA => wordOf op h f
      | .chB => wordOf op f l
      | .chC => wordOf (op ||| 1) h f
      | .chD => wordOf (op ||| 1) f l := by
  have z : op ||| 0 = op := BitVec.or_zero
  cases ch <;>
    simp only [merge, slotMask, clear_low, clear_high, encodeField_chA, encodeField_chB, encodeField_chC,
      encodeField_chD, wordOf_or_clear, wordOf_or_clear', z]

/-! ## Frames of forty bits (30_encoding R98, R99) -/

@[simp] theorem frameHigh_frameOf (h : U8) (l : U32) : frameHigh (frameOf h l) = h := by
  apply BitVec.eq_of_getLsbD_eq; intro i hi
  have h1 : ¬ (32 + i < 32) := by omega
  unfold frameHigh frameOf
  rw [BitVec.getLsbD_extractLsb', BitVec.getLsbD_append]
  simp [hi]

@[simp] theorem frameLow_frameOf (h : U8) (l : U32) : frameLow (frameOf h l) = l := by
  apply BitVec.eq_of_getLsbD_eq; intro i hi
  unfold frameLow frameOf
  rw [BitVec.getLsbD_extractLsb', BitVec.getLsbD_append]
  simp [hi]

theorem overrideOperand_index (v : ValveId) (d : Bool) :
    ValveId.ofBits ((overrideOperand v d).extractLsb' 0 3) = v := by
  cases v <;> cases d <;> decide

theorem overrideOperand_direction (v : ValveId) (d : Bool) : (overrideOperand v d).getLsbD 8 = d := by
  cases v <;> cases d <;> decide

theorem overrideOperand_mustBeZero (v : ValveId) (d : Bool) : overrideOperand v d &&& 0xFFFFFEF8#32 = 0#32 := by
  cases v <;> cases d <;> decide

theorem ofCode_code (r : Result) : Result.ofCode r.code = some r := by
  cases r <;> decide

end Sys2Proof.Laws
end

