-- ==== Sys2Proof/Laws/State.lean ====
section
/-! SUPPORT. One lemma per field per update of the state, and the read-after-write laws of the indexed parts, so that no
proof unfolds a record update. -/

namespace Sys2Proof.Laws

open Machine

variable (s : State)

@[simp] theorem setPhase_pending (p : Phase) : (s.setPhase p).pending = s.pending := rfl
@[simp] theorem setPhase_committed (p : Phase) : (s.setPhase p).committed = s.committed := rfl
@[simp] theorem setPhase_table (p : Phase) : (s.setPhase p).table = s.table := rfl
@[simp] theorem setPhase_mirror (p : Phase) : (s.setPhase p).mirror = s.mirror := rfl
@[simp] theorem setPhase_mode (p : Phase) : (s.setPhase p).mode = s.mode := rfl
@[simp] theorem setPhase_pulseWidthMs (p : Phase) : (s.setPhase p).pulseWidthMs = s.pulseWidthMs := rfl
@[simp] theorem setPhase_relay (p : Phase) : (s.setPhase p).relay = s.relay := rfl
@[simp] theorem setPhase_pin (p : Phase) : (s.setPhase p).pin = s.pin := rfl
@[simp] theorem setPhase_spiOn (p : Phase) : (s.setPhase p).spiOn = s.spiOn := rfl
@[simp] theorem setPhase_phase (p : Phase) : (s.setPhase p).phase = p := rfl
@[simp] theorem setPhase_failed (p : Phase) : (s.setPhase p).failed = s.failed := rfl
@[simp] theorem setPhase_dev (p : Phase) : (s.setPhase p).dev = s.dev := rfl
@[simp] theorem setPhase_cfg (p : Phase) : (s.setPhase p).cfg = s.cfg := rfl
@[simp] theorem setPhase_inbox (p : Phase) : (s.setPhase p).inbox = s.inbox := rfl
@[simp] theorem setPhase_results (p : Phase) : (s.setPhase p).results = s.results := rfl
@[simp] theorem setPhase_trace (p : Phase) : (s.setPhase p).trace = s.trace := rfl
@[simp] theorem setPhase_spiAnswers (p : Phase) : (s.setPhase p).spiAnswers = s.spiAnswers := rfl
@[simp] theorem setPhase_draws (p : Phase) : (s.setPhase p).draws = s.draws := rfl

@[simp] theorem setFailed_pending (b : Bool) : (s.setFailed b).pending = s.pending := rfl
@[simp] theorem setFailed_committed (b : Bool) : (s.setFailed b).committed = s.committed := rfl
@[simp] theorem setFailed_table (b : Bool) : (s.setFailed b).table = s.table := rfl
@[simp] theorem setFailed_mirror (b : Bool) : (s.setFailed b).mirror = s.mirror := rfl
@[simp] theorem setFailed_mode (b : Bool) : (s.setFailed b).mode = s.mode := rfl
@[simp] theorem setFailed_pulseWidthMs (b : Bool) : (s.setFailed b).pulseWidthMs = s.pulseWidthMs := rfl
@[simp] theorem setFailed_relay (b : Bool) : (s.setFailed b).relay = s.relay := rfl
@[simp] theorem setFailed_pin (b : Bool) : (s.setFailed b).pin = s.pin := rfl
@[simp] theorem setFailed_spiOn (b : Bool) : (s.setFailed b).spiOn = s.spiOn := rfl
@[simp] theorem setFailed_phase (b : Bool) : (s.setFailed b).phase = s.phase := rfl
@[simp] theorem setFailed_failed (b : Bool) : (s.setFailed b).failed = b := rfl
@[simp] theorem setFailed_dev (b : Bool) : (s.setFailed b).dev = s.dev := rfl
@[simp] theorem setFailed_cfg (b : Bool) : (s.setFailed b).cfg = s.cfg := rfl
@[simp] theorem setFailed_inbox (b : Bool) : (s.setFailed b).inbox = s.inbox := rfl
@[simp] theorem setFailed_results (b : Bool) : (s.setFailed b).results = s.results := rfl
@[simp] theorem setFailed_trace (b : Bool) : (s.setFailed b).trace = s.trace := rfl
@[simp] theorem setFailed_spiAnswers (b : Bool) : (s.setFailed b).spiAnswers = s.spiAnswers := rfl
@[simp] theorem setFailed_draws (b : Bool) : (s.setFailed b).draws = s.draws := rfl

@[simp] theorem answer_pending (a : Answer) : (s.answer a).pending = s.pending := rfl
@[simp] theorem answer_committed (a : Answer) : (s.answer a).committed = s.committed := rfl
@[simp] theorem answer_table (a : Answer) : (s.answer a).table = s.table := rfl
@[simp] theorem answer_mirror (a : Answer) : (s.answer a).mirror = s.mirror := rfl
@[simp] theorem answer_mode (a : Answer) : (s.answer a).mode = s.mode := rfl
@[simp] theorem answer_pulseWidthMs (a : Answer) : (s.answer a).pulseWidthMs = s.pulseWidthMs := rfl
@[simp] theorem answer_relay (a : Answer) : (s.answer a).relay = s.relay := rfl
@[simp] theorem answer_pin (a : Answer) : (s.answer a).pin = s.pin := rfl
@[simp] theorem answer_spiOn (a : Answer) : (s.answer a).spiOn = s.spiOn := rfl
@[simp] theorem answer_phase (a : Answer) : (s.answer a).phase = s.phase := rfl
@[simp] theorem answer_failed (a : Answer) : (s.answer a).failed = s.failed := rfl
@[simp] theorem answer_dev (a : Answer) : (s.answer a).dev = s.dev := rfl
@[simp] theorem answer_cfg (a : Answer) : (s.answer a).cfg = s.cfg := rfl
@[simp] theorem answer_inbox (a : Answer) : (s.answer a).inbox = s.inbox := rfl
@[simp] theorem answer_results (a : Answer) : (s.answer a).results = s.results ++ [a] := rfl
@[simp] theorem answer_trace (a : Answer) : (s.answer a).trace = s.trace := rfl
@[simp] theorem answer_spiAnswers (a : Answer) : (s.answer a).spiAnswers = s.spiAnswers := rfl
@[simp] theorem answer_draws (a : Answer) : (s.answer a).draws = s.draws := rfl

@[simp] theorem setPending_pending (ic : IcId) (c : IcCommandSet) : (s.setPending ic c).pending = icSet s.pending ic c := rfl
@[simp] theorem setPending_committed (ic : IcId) (c : IcCommandSet) : (s.setPending ic c).committed = s.committed := rfl
@[simp] theorem setPending_table (ic : IcId) (c : IcCommandSet) : (s.setPending ic c).table = s.table := rfl
@[simp] theorem setPending_mirror (ic : IcId) (c : IcCommandSet) : (s.setPending ic c).mirror = s.mirror := rfl
@[simp] theorem setPending_mode (ic : IcId) (c : IcCommandSet) : (s.setPending ic c).mode = s.mode := rfl
@[simp] theorem setPending_pulseWidthMs (ic : IcId) (c : IcCommandSet) : (s.setPending ic c).pulseWidthMs = s.pulseWidthMs := rfl
@[simp] theorem setPending_relay (ic : IcId) (c : IcCommandSet) : (s.setPending ic c).relay = s.relay := rfl
@[simp] theorem setPending_pin (ic : IcId) (c : IcCommandSet) : (s.setPending ic c).pin = s.pin := rfl
@[simp] theorem setPending_spiOn (ic : IcId) (c : IcCommandSet) : (s.setPending ic c).spiOn = s.spiOn := rfl
@[simp] theorem setPending_phase (ic : IcId) (c : IcCommandSet) : (s.setPending ic c).phase = s.phase := rfl
@[simp] theorem setPending_failed (ic : IcId) (c : IcCommandSet) : (s.setPending ic c).failed = s.failed := rfl
@[simp] theorem setPending_dev (ic : IcId) (c : IcCommandSet) : (s.setPending ic c).dev = s.dev := rfl
@[simp] theorem setPending_cfg (ic : IcId) (c : IcCommandSet) : (s.setPending ic c).cfg = s.cfg := rfl
@[simp] theorem setPending_inbox (ic : IcId) (c : IcCommandSet) : (s.setPending ic c).inbox = s.inbox := rfl
@[simp] theorem setPending_results (ic : IcId) (c : IcCommandSet) : (s.setPending ic c).results = s.results := rfl
@[simp] theorem setPending_trace (ic : IcId) (c : IcCommandSet) : (s.setPending ic c).trace = s.trace := rfl
@[simp] theorem setPending_spiAnswers (ic : IcId) (c : IcCommandSet) : (s.setPending ic c).spiAnswers = s.spiAnswers := rfl
@[simp] theorem setPending_draws (ic : IcId) (c : IcCommandSet) : (s.setPending ic c).draws = s.draws := rfl

@[simp] theorem setCommitted_pending (ic : IcId) (c : IcCommandSet) : (s.setCommitted ic c).pending = s.pending := rfl
@[simp] theorem setCommitted_committed (ic : IcId) (c : IcCommandSet) : (s.setCommitted ic c).committed = icSet s.committed ic c := rfl
@[simp] theorem setCommitted_table (ic : IcId) (c : IcCommandSet) : (s.setCommitted ic c).table = s.table := rfl
@[simp] theorem setCommitted_mirror (ic : IcId) (c : IcCommandSet) : (s.setCommitted ic c).mirror = s.mirror := rfl
@[simp] theorem setCommitted_mode (ic : IcId) (c : IcCommandSet) : (s.setCommitted ic c).mode = s.mode := rfl
@[simp] theorem setCommitted_pulseWidthMs (ic : IcId) (c : IcCommandSet) : (s.setCommitted ic c).pulseWidthMs = s.pulseWidthMs := rfl
@[simp] theorem setCommitted_relay (ic : IcId) (c : IcCommandSet) : (s.setCommitted ic c).relay = s.relay := rfl
@[simp] theorem setCommitted_pin (ic : IcId) (c : IcCommandSet) : (s.setCommitted ic c).pin = s.pin := rfl
@[simp] theorem setCommitted_spiOn (ic : IcId) (c : IcCommandSet) : (s.setCommitted ic c).spiOn = s.spiOn := rfl
@[simp] theorem setCommitted_phase (ic : IcId) (c : IcCommandSet) : (s.setCommitted ic c).phase = s.phase := rfl
@[simp] theorem setCommitted_failed (ic : IcId) (c : IcCommandSet) : (s.setCommitted ic c).failed = s.failed := rfl
@[simp] theorem setCommitted_dev (ic : IcId) (c : IcCommandSet) : (s.setCommitted ic c).dev = s.dev := rfl
@[simp] theorem setCommitted_cfg (ic : IcId) (c : IcCommandSet) : (s.setCommitted ic c).cfg = s.cfg := rfl
@[simp] theorem setCommitted_inbox (ic : IcId) (c : IcCommandSet) : (s.setCommitted ic c).inbox = s.inbox := rfl
@[simp] theorem setCommitted_results (ic : IcId) (c : IcCommandSet) : (s.setCommitted ic c).results = s.results := rfl
@[simp] theorem setCommitted_trace (ic : IcId) (c : IcCommandSet) : (s.setCommitted ic c).trace = s.trace := rfl
@[simp] theorem setCommitted_spiAnswers (ic : IcId) (c : IcCommandSet) : (s.setCommitted ic c).spiAnswers = s.spiAnswers := rfl
@[simp] theorem setCommitted_draws (ic : IcId) (c : IcCommandSet) : (s.setCommitted ic c).draws = s.draws := rfl

@[simp] theorem setTable_pending (t : List (Mode × Preset)) : (s.setTable t).pending = s.pending := rfl
@[simp] theorem setTable_committed (t : List (Mode × Preset)) : (s.setTable t).committed = s.committed := rfl
@[simp] theorem setTable_table (t : List (Mode × Preset)) : (s.setTable t).table = t := rfl
@[simp] theorem setTable_mirror (t : List (Mode × Preset)) : (s.setTable t).mirror = s.mirror := rfl
@[simp] theorem setTable_mode (t : List (Mode × Preset)) : (s.setTable t).mode = s.mode := rfl
@[simp] theorem setTable_pulseWidthMs (t : List (Mode × Preset)) : (s.setTable t).pulseWidthMs = s.pulseWidthMs := rfl
@[simp] theorem setTable_relay (t : List (Mode × Preset)) : (s.setTable t).relay = s.relay := rfl
@[simp] theorem setTable_pin (t : List (Mode × Preset)) : (s.setTable t).pin = s.pin := rfl
@[simp] theorem setTable_spiOn (t : List (Mode × Preset)) : (s.setTable t).spiOn = s.spiOn := rfl
@[simp] theorem setTable_phase (t : List (Mode × Preset)) : (s.setTable t).phase = s.phase := rfl
@[simp] theorem setTable_failed (t : List (Mode × Preset)) : (s.setTable t).failed = s.failed := rfl
@[simp] theorem setTable_dev (t : List (Mode × Preset)) : (s.setTable t).dev = s.dev := rfl
@[simp] theorem setTable_cfg (t : List (Mode × Preset)) : (s.setTable t).cfg = s.cfg := rfl
@[simp] theorem setTable_inbox (t : List (Mode × Preset)) : (s.setTable t).inbox = s.inbox := rfl
@[simp] theorem setTable_results (t : List (Mode × Preset)) : (s.setTable t).results = s.results := rfl
@[simp] theorem setTable_trace (t : List (Mode × Preset)) : (s.setTable t).trace = s.trace := rfl
@[simp] theorem setTable_spiAnswers (t : List (Mode × Preset)) : (s.setTable t).spiAnswers = s.spiAnswers := rfl
@[simp] theorem setTable_draws (t : List (Mode × Preset)) : (s.setTable t).draws = s.draws := rfl

@[simp] theorem setMirror_pending (p : Preset) : (s.setMirror p).pending = s.pending := rfl
@[simp] theorem setMirror_committed (p : Preset) : (s.setMirror p).committed = s.committed := rfl
@[simp] theorem setMirror_table (p : Preset) : (s.setMirror p).table = s.table := rfl
@[simp] theorem setMirror_mirror (p : Preset) : (s.setMirror p).mirror = p := rfl
@[simp] theorem setMirror_mode (p : Preset) : (s.setMirror p).mode = s.mode := rfl
@[simp] theorem setMirror_pulseWidthMs (p : Preset) : (s.setMirror p).pulseWidthMs = s.pulseWidthMs := rfl
@[simp] theorem setMirror_relay (p : Preset) : (s.setMirror p).relay = s.relay := rfl
@[simp] theorem setMirror_pin (p : Preset) : (s.setMirror p).pin = s.pin := rfl
@[simp] theorem setMirror_spiOn (p : Preset) : (s.setMirror p).spiOn = s.spiOn := rfl
@[simp] theorem setMirror_phase (p : Preset) : (s.setMirror p).phase = s.phase := rfl
@[simp] theorem setMirror_failed (p : Preset) : (s.setMirror p).failed = s.failed := rfl
@[simp] theorem setMirror_dev (p : Preset) : (s.setMirror p).dev = s.dev := rfl
@[simp] theorem setMirror_cfg (p : Preset) : (s.setMirror p).cfg = s.cfg := rfl
@[simp] theorem setMirror_inbox (p : Preset) : (s.setMirror p).inbox = s.inbox := rfl
@[simp] theorem setMirror_results (p : Preset) : (s.setMirror p).results = s.results := rfl
@[simp] theorem setMirror_trace (p : Preset) : (s.setMirror p).trace = s.trace := rfl
@[simp] theorem setMirror_spiAnswers (p : Preset) : (s.setMirror p).spiAnswers = s.spiAnswers := rfl
@[simp] theorem setMirror_draws (p : Preset) : (s.setMirror p).draws = s.draws := rfl

@[simp] theorem setMode_pending (m : Mode) : (s.setMode m).pending = s.pending := rfl
@[simp] theorem setMode_committed (m : Mode) : (s.setMode m).committed = s.committed := rfl
@[simp] theorem setMode_table (m : Mode) : (s.setMode m).table = s.table := rfl
@[simp] theorem setMode_mirror (m : Mode) : (s.setMode m).mirror = s.mirror := rfl
@[simp] theorem setMode_mode (m : Mode) : (s.setMode m).mode = m := rfl
@[simp] theorem setMode_pulseWidthMs (m : Mode) : (s.setMode m).pulseWidthMs = s.pulseWidthMs := rfl
@[simp] theorem setMode_relay (m : Mode) : (s.setMode m).relay = s.relay := rfl
@[simp] theorem setMode_pin (m : Mode) : (s.setMode m).pin = s.pin := rfl
@[simp] theorem setMode_spiOn (m : Mode) : (s.setMode m).spiOn = s.spiOn := rfl
@[simp] theorem setMode_phase (m : Mode) : (s.setMode m).phase = s.phase := rfl
@[simp] theorem setMode_failed (m : Mode) : (s.setMode m).failed = s.failed := rfl
@[simp] theorem setMode_dev (m : Mode) : (s.setMode m).dev = s.dev := rfl
@[simp] theorem setMode_cfg (m : Mode) : (s.setMode m).cfg = s.cfg := rfl
@[simp] theorem setMode_inbox (m : Mode) : (s.setMode m).inbox = s.inbox := rfl
@[simp] theorem setMode_results (m : Mode) : (s.setMode m).results = s.results := rfl
@[simp] theorem setMode_trace (m : Mode) : (s.setMode m).trace = s.trace := rfl
@[simp] theorem setMode_spiAnswers (m : Mode) : (s.setMode m).spiAnswers = s.spiAnswers := rfl
@[simp] theorem setMode_draws (m : Mode) : (s.setMode m).draws = s.draws := rfl

@[simp] theorem setPulseWidth_pending (ms : U32) : (s.setPulseWidth ms).pending = s.pending := rfl
@[simp] theorem setPulseWidth_committed (ms : U32) : (s.setPulseWidth ms).committed = s.committed := rfl
@[simp] theorem setPulseWidth_table (ms : U32) : (s.setPulseWidth ms).table = s.table := rfl
@[simp] theorem setPulseWidth_mirror (ms : U32) : (s.setPulseWidth ms).mirror = s.mirror := rfl
@[simp] theorem setPulseWidth_mode (ms : U32) : (s.setPulseWidth ms).mode = s.mode := rfl
@[simp] theorem setPulseWidth_pulseWidthMs (ms : U32) : (s.setPulseWidth ms).pulseWidthMs = ms := rfl
@[simp] theorem setPulseWidth_relay (ms : U32) : (s.setPulseWidth ms).relay = s.relay := rfl
@[simp] theorem setPulseWidth_pin (ms : U32) : (s.setPulseWidth ms).pin = s.pin := rfl
@[simp] theorem setPulseWidth_spiOn (ms : U32) : (s.setPulseWidth ms).spiOn = s.spiOn := rfl
@[simp] theorem setPulseWidth_phase (ms : U32) : (s.setPulseWidth ms).phase = s.phase := rfl
@[simp] theorem setPulseWidth_failed (ms : U32) : (s.setPulseWidth ms).failed = s.failed := rfl
@[simp] theorem setPulseWidth_dev (ms : U32) : (s.setPulseWidth ms).dev = s.dev := rfl
@[simp] theorem setPulseWidth_cfg (ms : U32) : (s.setPulseWidth ms).cfg = s.cfg := rfl
@[simp] theorem setPulseWidth_inbox (ms : U32) : (s.setPulseWidth ms).inbox = s.inbox := rfl
@[simp] theorem setPulseWidth_results (ms : U32) : (s.setPulseWidth ms).results = s.results := rfl
@[simp] theorem setPulseWidth_trace (ms : U32) : (s.setPulseWidth ms).trace = s.trace := rfl
@[simp] theorem setPulseWidth_spiAnswers (ms : U32) : (s.setPulseWidth ms).spiAnswers = s.spiAnswers := rfl
@[simp] theorem setPulseWidth_draws (ms : U32) : (s.setPulseWidth ms).draws = s.draws := rfl

@[simp] theorem setRelay_pending (b : Bool) : (s.setRelay b).pending = s.pending := rfl
@[simp] theorem setRelay_committed (b : Bool) : (s.setRelay b).committed = s.committed := rfl
@[simp] theorem setRelay_table (b : Bool) : (s.setRelay b).table = s.table := rfl
@[simp] theorem setRelay_mirror (b : Bool) : (s.setRelay b).mirror = s.mirror := rfl
@[simp] theorem setRelay_mode (b : Bool) : (s.setRelay b).mode = s.mode := rfl
@[simp] theorem setRelay_pulseWidthMs (b : Bool) : (s.setRelay b).pulseWidthMs = s.pulseWidthMs := rfl
@[simp] theorem setRelay_relay (b : Bool) : (s.setRelay b).relay = b := rfl
@[simp] theorem setRelay_pin (b : Bool) : (s.setRelay b).pin = s.pin := rfl
@[simp] theorem setRelay_spiOn (b : Bool) : (s.setRelay b).spiOn = s.spiOn := rfl
@[simp] theorem setRelay_phase (b : Bool) : (s.setRelay b).phase = s.phase := rfl
@[simp] theorem setRelay_failed (b : Bool) : (s.setRelay b).failed = s.failed := rfl
@[simp] theorem setRelay_dev (b : Bool) : (s.setRelay b).dev = s.dev := rfl
@[simp] theorem setRelay_cfg (b : Bool) : (s.setRelay b).cfg = s.cfg := rfl
@[simp] theorem setRelay_inbox (b : Bool) : (s.setRelay b).inbox = s.inbox := rfl
@[simp] theorem setRelay_results (b : Bool) : (s.setRelay b).results = s.results := rfl
@[simp] theorem setRelay_trace (b : Bool) : (s.setRelay b).trace = s.trace := rfl
@[simp] theorem setRelay_spiAnswers (b : Bool) : (s.setRelay b).spiAnswers = s.spiAnswers := rfl
@[simp] theorem setRelay_draws (b : Bool) : (s.setRelay b).draws = s.draws := rfl

@[simp] theorem setPin_pending (ic : IcId) (line : Line) (b : Bool) : (s.setPin ic line b).pending = s.pending := rfl
@[simp] theorem setPin_committed (ic : IcId) (line : Line) (b : Bool) : (s.setPin ic line b).committed = s.committed := rfl
@[simp] theorem setPin_table (ic : IcId) (line : Line) (b : Bool) : (s.setPin ic line b).table = s.table := rfl
@[simp] theorem setPin_mirror (ic : IcId) (line : Line) (b : Bool) : (s.setPin ic line b).mirror = s.mirror := rfl
@[simp] theorem setPin_mode (ic : IcId) (line : Line) (b : Bool) : (s.setPin ic line b).mode = s.mode := rfl
@[simp] theorem setPin_pulseWidthMs (ic : IcId) (line : Line) (b : Bool) : (s.setPin ic line b).pulseWidthMs = s.pulseWidthMs := rfl
@[simp] theorem setPin_relay (ic : IcId) (line : Line) (b : Bool) : (s.setPin ic line b).relay = s.relay := rfl
@[simp] theorem setPin_pin (ic : IcId) (line : Line) (b : Bool) : (s.setPin ic line b).pin = icSet s.pin ic (lineSet (icGet s.pin ic) line b) := rfl
@[simp] theorem setPin_spiOn (ic : IcId) (line : Line) (b : Bool) : (s.setPin ic line b).spiOn = s.spiOn := rfl
@[simp] theorem setPin_phase (ic : IcId) (line : Line) (b : Bool) : (s.setPin ic line b).phase = s.phase := rfl
@[simp] theorem setPin_failed (ic : IcId) (line : Line) (b : Bool) : (s.setPin ic line b).failed = s.failed := rfl
@[simp] theorem setPin_dev (ic : IcId) (line : Line) (b : Bool) : (s.setPin ic line b).dev = s.dev := rfl
@[simp] theorem setPin_cfg (ic : IcId) (line : Line) (b : Bool) : (s.setPin ic line b).cfg = s.cfg := rfl
@[simp] theorem setPin_inbox (ic : IcId) (line : Line) (b : Bool) : (s.setPin ic line b).inbox = s.inbox := rfl
@[simp] theorem setPin_results (ic : IcId) (line : Line) (b : Bool) : (s.setPin ic line b).results = s.results := rfl
@[simp] theorem setPin_trace (ic : IcId) (line : Line) (b : Bool) : (s.setPin ic line b).trace = s.trace := rfl
@[simp] theorem setPin_spiAnswers (ic : IcId) (line : Line) (b : Bool) : (s.setPin ic line b).spiAnswers = s.spiAnswers := rfl
@[simp] theorem setPin_draws (ic : IcId) (line : Line) (b : Bool) : (s.setPin ic line b).draws = s.draws := rfl

@[simp] theorem setSpiOn_pending (b : Bool) : (s.setSpiOn b).pending = s.pending := rfl
@[simp] theorem setSpiOn_committed (b : Bool) : (s.setSpiOn b).committed = s.committed := rfl
@[simp] theorem setSpiOn_table (b : Bool) : (s.setSpiOn b).table = s.table := rfl
@[simp] theorem setSpiOn_mirror (b : Bool) : (s.setSpiOn b).mirror = s.mirror := rfl
@[simp] theorem setSpiOn_mode (b : Bool) : (s.setSpiOn b).mode = s.mode := rfl
@[simp] theorem setSpiOn_pulseWidthMs (b : Bool) : (s.setSpiOn b).pulseWidthMs = s.pulseWidthMs := rfl
@[simp] theorem setSpiOn_relay (b : Bool) : (s.setSpiOn b).relay = s.relay := rfl
@[simp] theorem setSpiOn_pin (b : Bool) : (s.setSpiOn b).pin = s.pin := rfl
@[simp] theorem setSpiOn_spiOn (b : Bool) : (s.setSpiOn b).spiOn = b := rfl
@[simp] theorem setSpiOn_phase (b : Bool) : (s.setSpiOn b).phase = s.phase := rfl
@[simp] theorem setSpiOn_failed (b : Bool) : (s.setSpiOn b).failed = s.failed := rfl
@[simp] theorem setSpiOn_dev (b : Bool) : (s.setSpiOn b).dev = s.dev := rfl
@[simp] theorem setSpiOn_cfg (b : Bool) : (s.setSpiOn b).cfg = s.cfg := rfl
@[simp] theorem setSpiOn_inbox (b : Bool) : (s.setSpiOn b).inbox = s.inbox := rfl
@[simp] theorem setSpiOn_results (b : Bool) : (s.setSpiOn b).results = s.results := rfl
@[simp] theorem setSpiOn_trace (b : Bool) : (s.setSpiOn b).trace = s.trace := rfl
@[simp] theorem setSpiOn_spiAnswers (b : Bool) : (s.setSpiOn b).spiAnswers = s.spiAnswers := rfl
@[simp] theorem setSpiOn_draws (b : Bool) : (s.setSpiOn b).draws = s.draws := rfl

@[simp] theorem setInbox_pending (fs : List Frame) : (s.setInbox fs).pending = s.pending := rfl
@[simp] theorem setInbox_committed (fs : List Frame) : (s.setInbox fs).committed = s.committed := rfl
@[simp] theorem setInbox_table (fs : List Frame) : (s.setInbox fs).table = s.table := rfl
@[simp] theorem setInbox_mirror (fs : List Frame) : (s.setInbox fs).mirror = s.mirror := rfl
@[simp] theorem setInbox_mode (fs : List Frame) : (s.setInbox fs).mode = s.mode := rfl
@[simp] theorem setInbox_pulseWidthMs (fs : List Frame) : (s.setInbox fs).pulseWidthMs = s.pulseWidthMs := rfl
@[simp] theorem setInbox_relay (fs : List Frame) : (s.setInbox fs).relay = s.relay := rfl
@[simp] theorem setInbox_pin (fs : List Frame) : (s.setInbox fs).pin = s.pin := rfl
@[simp] theorem setInbox_spiOn (fs : List Frame) : (s.setInbox fs).spiOn = s.spiOn := rfl
@[simp] theorem setInbox_phase (fs : List Frame) : (s.setInbox fs).phase = s.phase := rfl
@[simp] theorem setInbox_failed (fs : List Frame) : (s.setInbox fs).failed = s.failed := rfl
@[simp] theorem setInbox_dev (fs : List Frame) : (s.setInbox fs).dev = s.dev := rfl
@[simp] theorem setInbox_cfg (fs : List Frame) : (s.setInbox fs).cfg = s.cfg := rfl
@[simp] theorem setInbox_inbox (fs : List Frame) : (s.setInbox fs).inbox = fs := rfl
@[simp] theorem setInbox_results (fs : List Frame) : (s.setInbox fs).results = s.results := rfl
@[simp] theorem setInbox_trace (fs : List Frame) : (s.setInbox fs).trace = s.trace := rfl
@[simp] theorem setInbox_spiAnswers (fs : List Frame) : (s.setInbox fs).spiAnswers = s.spiAnswers := rfl
@[simp] theorem setInbox_draws (fs : List Frame) : (s.setInbox fs).draws = s.draws := rfl

@[simp] theorem afterDraw_pending : (afterDraw s).pending = s.pending := rfl
@[simp] theorem afterDraw_committed : (afterDraw s).committed = s.committed := rfl
@[simp] theorem afterDraw_table : (afterDraw s).table = s.table := rfl
@[simp] theorem afterDraw_mirror : (afterDraw s).mirror = s.mirror := rfl
@[simp] theorem afterDraw_mode : (afterDraw s).mode = s.mode := rfl
@[simp] theorem afterDraw_pulseWidthMs : (afterDraw s).pulseWidthMs = s.pulseWidthMs := rfl
@[simp] theorem afterDraw_relay : (afterDraw s).relay = s.relay := rfl
@[simp] theorem afterDraw_pin : (afterDraw s).pin = s.pin := rfl
@[simp] theorem afterDraw_spiOn : (afterDraw s).spiOn = s.spiOn := rfl
@[simp] theorem afterDraw_phase : (afterDraw s).phase = s.phase := rfl
@[simp] theorem afterDraw_failed : (afterDraw s).failed = s.failed := rfl
@[simp] theorem afterDraw_dev : (afterDraw s).dev = s.dev := rfl
@[simp] theorem afterDraw_cfg : (afterDraw s).cfg = s.cfg := rfl
@[simp] theorem afterDraw_inbox : (afterDraw s).inbox = s.inbox := rfl
@[simp] theorem afterDraw_results : (afterDraw s).results = s.results := rfl
@[simp] theorem afterDraw_trace : (afterDraw s).trace = s.trace := rfl
@[simp] theorem afterDraw_spiAnswers : (afterDraw s).spiAnswers = s.spiAnswers.tail := rfl
@[simp] theorem afterDraw_draws : (afterDraw s).draws = s.draws + 1 := rfl

@[simp] theorem emit_pending (e : Event) : (emit e s).pending = s.pending := rfl
@[simp] theorem emit_committed (e : Event) : (emit e s).committed = s.committed := rfl
@[simp] theorem emit_table (e : Event) : (emit e s).table = s.table := rfl
@[simp] theorem emit_mirror (e : Event) : (emit e s).mirror = s.mirror := rfl
@[simp] theorem emit_mode (e : Event) : (emit e s).mode = s.mode := rfl
@[simp] theorem emit_pulseWidthMs (e : Event) : (emit e s).pulseWidthMs = s.pulseWidthMs := rfl
@[simp] theorem emit_relay (e : Event) : (emit e s).relay = s.relay := rfl
@[simp] theorem emit_pin (e : Event) : (emit e s).pin = s.pin := rfl
@[simp] theorem emit_spiOn (e : Event) : (emit e s).spiOn = s.spiOn := rfl
@[simp] theorem emit_phase (e : Event) : (emit e s).phase = s.phase := rfl
@[simp] theorem emit_failed (e : Event) : (emit e s).failed = s.failed := rfl
@[simp] theorem emit_dev (e : Event) : (emit e s).dev = devAfter e s := rfl
@[simp] theorem emit_cfg (e : Event) : (emit e s).cfg = s.cfg := rfl
@[simp] theorem emit_inbox (e : Event) : (emit e s).inbox = s.inbox := rfl
@[simp] theorem emit_results (e : Event) : (emit e s).results = s.results := rfl
@[simp] theorem emit_trace (e : Event) : (emit e s).trace = s.trace ++ [e] := rfl
@[simp] theorem emit_spiAnswers (e : Event) : (emit e s).spiAnswers = s.spiAnswers := rfl
@[simp] theorem emit_draws (e : Event) : (emit e s).draws = s.draws := rfl

@[simp] theorem respond_pending (r : Result) (v : U32) : (respond r v s).pending = s.pending := rfl
@[simp] theorem respond_committed (r : Result) (v : U32) : (respond r v s).committed = s.committed := rfl
@[simp] theorem respond_table (r : Result) (v : U32) : (respond r v s).table = s.table := rfl
@[simp] theorem respond_mirror (r : Result) (v : U32) : (respond r v s).mirror = s.mirror := rfl
@[simp] theorem respond_mode (r : Result) (v : U32) : (respond r v s).mode = s.mode := rfl
@[simp] theorem respond_pulseWidthMs (r : Result) (v : U32) : (respond r v s).pulseWidthMs = s.pulseWidthMs := rfl
@[simp] theorem respond_relay (r : Result) (v : U32) : (respond r v s).relay = s.relay := rfl
@[simp] theorem respond_pin (r : Result) (v : U32) : (respond r v s).pin = s.pin := rfl
@[simp] theorem respond_spiOn (r : Result) (v : U32) : (respond r v s).spiOn = s.spiOn := rfl
@[simp] theorem respond_phase (r : Result) (v : U32) : (respond r v s).phase = s.phase := rfl
@[simp] theorem respond_failed (r : Result) (v : U32) : (respond r v s).failed = s.failed := rfl
@[simp] theorem respond_dev (r : Result) (v : U32) : (respond r v s).dev = s.dev := rfl
@[simp] theorem respond_cfg (r : Result) (v : U32) : (respond r v s).cfg = s.cfg := rfl
@[simp] theorem respond_inbox (r : Result) (v : U32) : (respond r v s).inbox = s.inbox := rfl
@[simp] theorem respond_results (r : Result) (v : U32) : (respond r v s).results = s.results ++ [.response r v] := rfl
@[simp] theorem respond_trace (r : Result) (v : U32) : (respond r v s).trace = s.trace := rfl
@[simp] theorem respond_spiAnswers (r : Result) (v : U32) : (respond r v s).spiAnswers = s.spiAnswers := rfl
@[simp] theorem respond_draws (r : Result) (v : U32) : (respond r v s).draws = s.draws := rfl

@[simp] theorem refuse_pending : (refuse s).pending = s.pending := rfl
@[simp] theorem refuse_committed : (refuse s).committed = s.committed := rfl
@[simp] theorem refuse_table : (refuse s).table = s.table := rfl
@[simp] theorem refuse_mirror : (refuse s).mirror = s.mirror := rfl
@[simp] theorem refuse_mode : (refuse s).mode = s.mode := rfl
@[simp] theorem refuse_pulseWidthMs : (refuse s).pulseWidthMs = s.pulseWidthMs := rfl
@[simp] theorem refuse_relay : (refuse s).relay = s.relay := rfl
@[simp] theorem refuse_pin : (refuse s).pin = s.pin := rfl
@[simp] theorem refuse_spiOn : (refuse s).spiOn = s.spiOn := rfl
@[simp] theorem refuse_phase : (refuse s).phase = s.phase := rfl
@[simp] theorem refuse_failed : (refuse s).failed = s.failed := rfl
@[simp] theorem refuse_dev : (refuse s).dev = s.dev := rfl
@[simp] theorem refuse_cfg : (refuse s).cfg = s.cfg := rfl
@[simp] theorem refuse_inbox : (refuse s).inbox = s.inbox := rfl
@[simp] theorem refuse_results : (refuse s).results = s.results ++ [.response .invalidParameter 0] := rfl
@[simp] theorem refuse_trace : (refuse s).trace = s.trace := rfl
@[simp] theorem refuse_spiAnswers : (refuse s).spiAnswers = s.spiAnswers := rfl
@[simp] theorem refuse_draws : (refuse s).draws = s.draws := rfl

@[simp] theorem drivePin_pending (ic : IcId) (line : Line) (b : Bool) : (drivePin ic line b s).pending = s.pending := rfl
@[simp] theorem drivePin_committed (ic : IcId) (line : Line) (b : Bool) : (drivePin ic line b s).committed = s.committed := rfl
@[simp] theorem drivePin_table (ic : IcId) (line : Line) (b : Bool) : (drivePin ic line b s).table = s.table := rfl
@[simp] theorem drivePin_mirror (ic : IcId) (line : Line) (b : Bool) : (drivePin ic line b s).mirror = s.mirror := rfl
@[simp] theorem drivePin_mode (ic : IcId) (line : Line) (b : Bool) : (drivePin ic line b s).mode = s.mode := rfl
@[simp] theorem drivePin_pulseWidthMs (ic : IcId) (line : Line) (b : Bool) : (drivePin ic line b s).pulseWidthMs = s.pulseWidthMs := rfl
@[simp] theorem drivePin_relay (ic : IcId) (line : Line) (b : Bool) : (drivePin ic line b s).relay = s.relay := rfl
@[simp] theorem drivePin_pin (ic : IcId) (line : Line) (b : Bool) : (drivePin ic line b s).pin = icSet s.pin ic (lineSet (icGet s.pin ic) line b) := rfl
@[simp] theorem drivePin_spiOn (ic : IcId) (line : Line) (b : Bool) : (drivePin ic line b s).spiOn = s.spiOn := rfl
@[simp] theorem drivePin_phase (ic : IcId) (line : Line) (b : Bool) : (drivePin ic line b s).phase = s.phase := rfl
@[simp] theorem drivePin_failed (ic : IcId) (line : Line) (b : Bool) : (drivePin ic line b s).failed = s.failed := rfl
@[simp] theorem drivePin_dev (ic : IcId) (line : Line) (b : Bool) : (drivePin ic line b s).dev = devAfter (.pin ic line b) s := rfl
@[simp] theorem drivePin_cfg (ic : IcId) (line : Line) (b : Bool) : (drivePin ic line b s).cfg = s.cfg := rfl
@[simp] theorem drivePin_inbox (ic : IcId) (line : Line) (b : Bool) : (drivePin ic line b s).inbox = s.inbox := rfl
@[simp] theorem drivePin_results (ic : IcId) (line : Line) (b : Bool) : (drivePin ic line b s).results = s.results := rfl
@[simp] theorem drivePin_trace (ic : IcId) (line : Line) (b : Bool) : (drivePin ic line b s).trace = s.trace ++ [.pin ic line b] := rfl
@[simp] theorem drivePin_spiAnswers (ic : IcId) (line : Line) (b : Bool) : (drivePin ic line b s).spiAnswers = s.spiAnswers := rfl
@[simp] theorem drivePin_draws (ic : IcId) (line : Line) (b : Bool) : (drivePin ic line b s).draws = s.draws := rfl

@[simp] theorem driveRelay_pending (b : Bool) : (driveRelay b s).pending = s.pending := rfl
@[simp] theorem driveRelay_committed (b : Bool) : (driveRelay b s).committed = s.committed := rfl
@[simp] theorem driveRelay_table (b : Bool) : (driveRelay b s).table = s.table := rfl
@[simp] theorem driveRelay_mirror (b : Bool) : (driveRelay b s).mirror = s.mirror := rfl
@[simp] theorem driveRelay_mode (b : Bool) : (driveRelay b s).mode = s.mode := rfl
@[simp] theorem driveRelay_pulseWidthMs (b : Bool) : (driveRelay b s).pulseWidthMs = s.pulseWidthMs := rfl
@[simp] theorem driveRelay_relay (b : Bool) : (driveRelay b s).relay = b := rfl
@[simp] theorem driveRelay_pin (b : Bool) : (driveRelay b s).pin = s.pin := rfl
@[simp] theorem driveRelay_spiOn (b : Bool) : (driveRelay b s).spiOn = s.spiOn := rfl
@[simp] theorem driveRelay_phase (b : Bool) : (driveRelay b s).phase = s.phase := rfl
@[simp] theorem driveRelay_failed (b : Bool) : (driveRelay b s).failed = s.failed := rfl
@[simp] theorem driveRelay_dev (b : Bool) : (driveRelay b s).dev = s.dev := rfl
@[simp] theorem driveRelay_cfg (b : Bool) : (driveRelay b s).cfg = s.cfg := rfl
@[simp] theorem driveRelay_inbox (b : Bool) : (driveRelay b s).inbox = s.inbox := rfl
@[simp] theorem driveRelay_results (b : Bool) : (driveRelay b s).results = s.results := rfl
@[simp] theorem driveRelay_trace (b : Bool) : (driveRelay b s).trace = s.trace ++ [.relay b] := rfl
@[simp] theorem driveRelay_spiAnswers (b : Bool) : (driveRelay b s).spiAnswers = s.spiAnswers := rfl
@[simp] theorem driveRelay_draws (b : Bool) : (driveRelay b s).draws = s.draws := rfl

@[simp] theorem driveSpi_pending (b : Bool) : (driveSpi b s).pending = s.pending := rfl
@[simp] theorem driveSpi_committed (b : Bool) : (driveSpi b s).committed = s.committed := rfl
@[simp] theorem driveSpi_table (b : Bool) : (driveSpi b s).table = s.table := rfl
@[simp] theorem driveSpi_mirror (b : Bool) : (driveSpi b s).mirror = s.mirror := rfl
@[simp] theorem driveSpi_mode (b : Bool) : (driveSpi b s).mode = s.mode := rfl
@[simp] theorem driveSpi_pulseWidthMs (b : Bool) : (driveSpi b s).pulseWidthMs = s.pulseWidthMs := rfl
@[simp] theorem driveSpi_relay (b : Bool) : (driveSpi b s).relay = s.relay := rfl
@[simp] theorem driveSpi_pin (b : Bool) : (driveSpi b s).pin = s.pin := rfl
@[simp] theorem driveSpi_spiOn (b : Bool) : (driveSpi b s).spiOn = b := rfl
@[simp] theorem driveSpi_phase (b : Bool) : (driveSpi b s).phase = s.phase := rfl
@[simp] theorem driveSpi_failed (b : Bool) : (driveSpi b s).failed = s.failed := rfl
@[simp] theorem driveSpi_dev (b : Bool) : (driveSpi b s).dev = s.dev := by cases b <;> rfl
@[simp] theorem driveSpi_cfg (b : Bool) : (driveSpi b s).cfg = s.cfg := rfl
@[simp] theorem driveSpi_inbox (b : Bool) : (driveSpi b s).inbox = s.inbox := rfl
@[simp] theorem driveSpi_results (b : Bool) : (driveSpi b s).results = s.results := rfl
@[simp] theorem driveSpi_trace (b : Bool) : (driveSpi b s).trace = s.trace ++ [if b then .spiOn else .spiOff] := rfl
@[simp] theorem driveSpi_spiAnswers (b : Bool) : (driveSpi b s).spiAnswers = s.spiAnswers := rfl
@[simp] theorem driveSpi_draws (b : Bool) : (driveSpi b s).draws = s.draws := rfl

/-! ## Read after write -/

@[simp] theorem icGet_icSet_same {α : Type} (x : ByIc α) (ic : IcId) (v : α) : icGet (icSet x ic v) ic = v := by
  cases ic <;> rfl

theorem icGet_icSet_ne {α : Type} (x : ByIc α) {ic ic' : IcId} (v : α) (h : ic' ≠ ic) :
    icGet (icSet x ic v) ic' = icGet x ic' := by
  cases ic <;> cases ic' <;> first | rfl | exact absurd rfl h

@[simp] theorem icSet_icSet {α : Type} (x : ByIc α) (ic : IcId) (v w : α) : icSet (icSet x ic v) ic w = icSet x ic w := by
  cases ic <;> rfl

@[simp] theorem icSet_icGet {α : Type} (x : ByIc α) (ic : IcId) : icSet x ic (icGet x ic) = x := by
  cases ic <;> rfl

@[simp] theorem chGet_chSet_same {α : Type} (x : ByChannel α) (ch : ChannelId) (v : α) : chGet (chSet x ch v) ch = v := by
  cases ch <;> rfl

theorem chGet_chSet_ne {α : Type} (x : ByChannel α) {ch ch' : ChannelId} (v : α) (h : ch' ≠ ch) :
    chGet (chSet x ch v) ch' = chGet x ch' := by
  cases ch <;> cases ch' <;> first | rfl | exact absurd rfl h

@[simp] theorem valveGet_valveSet_same {α : Type} (x : ByValve α) (v : ValveId) (t : α) :
    valveGet (valveSet x v t) v = t := by
  cases v <;> rfl

theorem valveGet_valveSet_ne {α : Type} (x : ByValve α) {v v' : ValveId} (t : α) (h : v' ≠ v) :
    valveGet (valveSet x v t) v' = valveGet x v' := by
  cases v <;> cases v' <;> first | rfl | exact absurd rfl h

@[simp] theorem valveGet_valveMapAll {α β : Type} (g : α → β) (x : ByValve α) (v : ValveId) :
    valveGet (valveMapAll g x) v = g (valveGet x v) := by
  cases v <;> rfl

@[simp] theorem lineGet_lineSet_same (x : Lines) (line : Line) (b : Bool) : lineGet (lineSet x line b) line = b := by
  cases line <;> rfl

theorem lineGet_lineSet_ne (x : Lines) {line line' : Line} (b : Bool) (h : line' ≠ line) :
    lineGet (lineSet x line b) line' = lineGet x line' := by
  cases line <;> cases line' <;> first | rfl | exact absurd rfl h

/-! ## The draw -/

@[simp] theorem drawnOk_drivePin (ic : IcId) (line : Line) (b : Bool) : drawnOk (drivePin ic line b s) = drawnOk s := rfl

@[simp] theorem drawnOk_setPending (ic : IcId) (c : IcCommandSet) : drawnOk (s.setPending ic c) = drawnOk s := rfl

@[simp] theorem drawnOk_setCommitted (ic : IcId) (c : IcCommandSet) : drawnOk (s.setCommitted ic c) = drawnOk s := rfl

@[simp] theorem drawnOk_setPhase (p : Phase) : drawnOk (s.setPhase p) = drawnOk s := rfl

end Sys2Proof.Laws
end

