-- ==== Sys2Proof/Laws/Driver.lean ====
section
/-! SUPPORT. What each driver procedure can do, said once (41_driver R140 to R147). -/

namespace Sys2Proof.Laws

open Machine Safety

variable (s : State)

/-- The IC after one `xfer_word` (20_memory R75): the frame is shifted in if the transfer succeeded and the IC listens,
and the rising strobe latches what was shifted in. -/
def devAfterXfer (d : DevIc) (l : Lines) (spiOn : Bool) (w : U16) (ok : Bool) : DevIc :=
  let d' : DevIc :=
    if ok && l.nSleep && l.nReset && spiOn then { d with shift := .known w } else { d with shift := .unknown }
  if l.strobe || !l.nSleep || !l.nReset then d' else d'.latch

/-- The lines after one `xfer_word`: `CS` and `STROBE` down (41_driver R140). -/
def linesAfterXfer (l : Lines) : Lines := { l with cs := false, strobe := false }

@[simp] theorem xferWord_fst (ic : IcId) (w : U16) : (xferWord ic w s).1 = drawnOk s := rfl

/-- Everything one `xfer_word` does (41_driver R140, 20_memory R75). -/
theorem xferWord_snd (ic : IcId) (w : U16) :
    (xferWord ic w s).2 =
      { s with
        pin := icSet s.pin ic (linesAfterXfer (icGet s.pin ic))
        dev := icSet s.dev ic (devAfterXfer (icGet s.dev ic) (icGet s.pin ic) s.spiOn w (drawnOk s))
        trace := s.trace ++ xferEvents s.cfg.strobeDelayMs ic w (drawnOk s)
        spiAnswers := s.spiAnswers.tail
        draws := s.draws + 1 } := by
  cases ic <;>
    ext1 <;> simp [xferWord, linesAfterXfer, lineSet, icSet, icGet, devAfter, eventIc, DevIc.react, devAfterXfer, xferEvents]

@[simp] theorem xferWord_pending (ic : IcId) (w : U16) : ((xferWord ic w s).2).pending = s.pending := by
  rw [xferWord_snd]
@[simp] theorem xferWord_committed (ic : IcId) (w : U16) : ((xferWord ic w s).2).committed = s.committed := by
  rw [xferWord_snd]
@[simp] theorem xferWord_table (ic : IcId) (w : U16) : ((xferWord ic w s).2).table = s.table := by
  rw [xferWord_snd]
@[simp] theorem xferWord_mirror (ic : IcId) (w : U16) : ((xferWord ic w s).2).mirror = s.mirror := by
  rw [xferWord_snd]
@[simp] theorem xferWord_mode (ic : IcId) (w : U16) : ((xferWord ic w s).2).mode = s.mode := by
  rw [xferWord_snd]
@[simp] theorem xferWord_pulseWidthMs (ic : IcId) (w : U16) : ((xferWord ic w s).2).pulseWidthMs = s.pulseWidthMs := by
  rw [xferWord_snd]
@[simp] theorem xferWord_relay (ic : IcId) (w : U16) : ((xferWord ic w s).2).relay = s.relay := by
  rw [xferWord_snd]
@[simp] theorem xferWord_spiOn (ic : IcId) (w : U16) : ((xferWord ic w s).2).spiOn = s.spiOn := by
  rw [xferWord_snd]
@[simp] theorem xferWord_phase (ic : IcId) (w : U16) : ((xferWord ic w s).2).phase = s.phase := by
  rw [xferWord_snd]
@[simp] theorem xferWord_failed (ic : IcId) (w : U16) : ((xferWord ic w s).2).failed = s.failed := by
  rw [xferWord_snd]
@[simp] theorem xferWord_cfg (ic : IcId) (w : U16) : ((xferWord ic w s).2).cfg = s.cfg := by
  rw [xferWord_snd]
@[simp] theorem xferWord_inbox (ic : IcId) (w : U16) : ((xferWord ic w s).2).inbox = s.inbox := by
  rw [xferWord_snd]
@[simp] theorem xferWord_results (ic : IcId) (w : U16) : ((xferWord ic w s).2).results = s.results := by
  rw [xferWord_snd]

/-- `drv_sleep` and `drv_wake` drive one line and touch no device register (41_driver R145, R146). -/
theorem devAfter_nSleep (ic : IcId) (b : Bool) : devAfter (.pin ic .nSleep b) s = s.dev := by
  cases ic <;> rfl

theorem driveNSleep_eq (ic : IcId) (b : Bool) :
    drivePin ic .nSleep b s =
      { s with pin := icSet s.pin ic { icGet s.pin ic with nSleep := b }, trace := s.trace ++ [.pin ic .nSleep b] } := by
  ext1 <;> first | rfl | simp [devAfter_nSleep]

/-- Everything `drv_reset` does (41_driver R147, 20_memory R75). -/
theorem drvReset_eq (ic : IcId) :
    drvReset ic s =
      { s with
        pin := icSet s.pin ic ⟨false, false, true, false⟩
        dev := icSet s.dev ic ⟨.unknown, .known 0, .known 0⟩
        spiOn := true
        trace := s.trace ++ resetEvents s.cfg ic } := by
  cases ic <;>
    ext1 <;> simp [drvReset, lineSet, icSet, icGet, devAfter, eventIc, DevIc.react, resetEvents]

/-- Everything `drv_init` does (41_driver R141). -/
theorem drvInit_eq (ic : IcId) :
    drvInit ic s =
      { s with
        pin := icSet s.pin ic ⟨false, false, true, true⟩
        pending := icSet s.pending ic .zero
        committed := icSet s.committed ic .zero
        spiOn := true
        trace := s.trace ++ drvInitEvents ic } := by
  cases ic <;>
    ext1 <;> simp [drvInit, lineSet, icSet, icGet, devAfter, eventIc, DevIc.react, drvInitEvents]

/-- Everything `drv_set_single_channel` can do (41_driver R143). -/
theorem drvSetSingleChannel_eq (ic : IcId) (ch : ChannelId) (f : ChannelField) :
    drvSetSingleChannel ic ch f s =
      let attempt := updateChannel (icGet s.committed ic) ch f
      let sent := (xferWord ic (wordHolding attempt ch) (s.setPending ic attempt)).2
      if drawnOk s then (.ok, sent.setCommitted ic attempt) else (.transferFailed, sent) := rfl

/-- Everything `drv_set_all_channels` can do (41_driver R144): the AB word failed, the CD word failed, or both went
through. -/
theorem drvSetAllChannels_eq (ic : IcId) (f : ByChannel ChannelField) :
    drvSetAllChannels ic f s =
      let sentAB := (xferWord ic (assemble f).1 (s.setPending ic ⟨f, (assemble f).1, (assemble f).2⟩)).2
      let s2 := sentAB.setCommitted ic (commitAB (icGet s.committed ic) f)
      let sentCD := (xferWord ic (assemble f).2 s2).2
      if drawnOk s then
        if drawnOk s2 then (.ok, sentCD.setCommitted ic (commitCD (commitAB (icGet s.committed ic) f) f))
        else (.partialCommit, sentCD)
      else (.transferFailed, sentAB) := by
  simp only [drvSetAllChannels, sendCD, xferWord_fst, xferWord_committed, drawnOk_setPending, setPending_committed,
    setCommitted_committed, icGet_icSet_same]

/-- After both words the committed set is the fresh one (41_driver R144). -/
theorem commitCD_commitAB (c : IcCommandSet) (f : ByChannel ChannelField) :
    commitCD (commitAB c f) f = ⟨f, (assemble f).1, (assemble f).2⟩ := rfl

/-- One word sent after `pending` was set, the state written out. -/
theorem xferWord_setPending (ic : IcId) (w : U16) (a : IcCommandSet) :
    (xferWord ic w (s.setPending ic a)).2 =
      { s with
        pending := icSet s.pending ic a
        pin := icSet s.pin ic (linesAfterXfer (icGet s.pin ic))
        dev := icSet s.dev ic (devAfterXfer (icGet s.dev ic) (icGet s.pin ic) s.spiOn w (drawnOk s))
        trace := s.trace ++ xferEvents s.cfg.strobeDelayMs ic w (drawnOk s)
        spiAnswers := s.spiAnswers.tail
        draws := s.draws + 1 } := by
  rw [xferWord_snd]; rfl

/-- The answer to the next transfer is a matter of the two fields that hold the environment's draws. -/
theorem drawnOk_congr {s t : State} (h : t.spiAnswers = s.spiAnswers) (h' : t.draws = s.draws) :
    drawnOk t = drawnOk s := by
  simp only [drawnOk, h, h']

/-- So are the answers to the next `n`. -/
theorem nextAnswers_congr {s t : State} (h : t.spiAnswers = s.spiAnswers) (h' : t.draws = s.draws) (n : Nat) :
    nextAnswers t n = nextAnswers s n := by
  induction n generalizing s t with
  | zero => rfl
  | succ n ih =>
    simp only [nextAnswers, drawnOk_congr h h']
    rw [ih (s := afterDraw s) (t := afterDraw t) (by simp [h]) (by simp [h'])]

/-- The answers to the next `m + n` are those to the next `m`, then those to the `n` after them. -/
theorem nextAnswers_add (m n : Nat) :
    nextAnswers s (m + n) =
      nextAnswers s m ++ nextAnswers { s with spiAnswers := s.spiAnswers.drop m, draws := s.draws + m } n := by
  induction m generalizing s with
  | zero => simp [nextAnswers]
  | succ m ih =>
    rw [Nat.add_right_comm]
    simp only [nextAnswers, ih, List.cons_append]
    congr 2
    apply nextAnswers_congr
    · simp
    · simp only [afterDraw]; omega

/-- `drv_set_all_channels` when its first transfer fails, the state written out. -/
theorem drvSetAllChannels_first (ic : IcId) (f : ByChannel ChannelField) (h : drawnOk s = false) :
    drvSetAllChannels ic f s =
      (.transferFailed,
        { s with
          pending := icSet s.pending ic (freshSet f)
          pin := icSet s.pin ic (linesAfterXfer (icGet s.pin ic))
          dev := icSet s.dev ic (devAfterXfer (icGet s.dev ic) (icGet s.pin ic) s.spiOn (assemble f).1 false)
          trace := s.trace ++ xferEvents s.cfg.strobeDelayMs ic (assemble f).1 false
          spiAnswers := s.spiAnswers.tail
          draws := s.draws + 1 }) := by
  rw [drvSetAllChannels_eq]; dsimp only
  rw [h, xferWord_setPending, h]; rfl

/-- `drv_set_all_channels` when its first transfer succeeds and its second answers `ok`, the state written out. -/
theorem drvSetAllChannels_second (ic : IcId) (f : ByChannel ChannelField) (ok : Bool) (h : drawnOk s = true)
    (h2 : drawnOk (afterDraw s) = ok) :
    drvSetAllChannels ic f s =
      (if ok then .ok else .partialCommit,
        { s with
          pending := icSet s.pending ic (freshSet f)
          committed := icSet s.committed ic (if ok then freshSet f else commitAB (icGet s.committed ic) f)
          pin := icSet s.pin ic (linesAfterXfer (icGet s.pin ic))
          dev := icSet s.dev ic
            (devAfterXfer (devAfterXfer (icGet s.dev ic) (icGet s.pin ic) s.spiOn (assemble f).1 true)
              (linesAfterXfer (icGet s.pin ic)) s.spiOn (assemble f).2 ok)
          trace := s.trace ++ (xferEvents s.cfg.strobeDelayMs ic (assemble f).1 true ++
            xferEvents s.cfg.strobeDelayMs ic (assemble f).2 ok)
          spiAnswers := s.spiAnswers.tail.tail
          draws := s.draws + 2 }) := by
  rw [drvSetAllChannels_eq]; dsimp only
  have e : ∀ t : State, t.spiAnswers = s.spiAnswers.tail → t.draws = s.draws + 1 → drawnOk t = ok := by
    intro t h3 h4; rw [← h2]; simp only [drawnOk, afterDraw, h3, h4]
  rw [xferWord_setPending, h, e _ (by rfl) (by rfl), xferWord_snd, e _ (by rfl) (by rfl)]
  cases ok <;>
    simp only [if_true] <;> congr 1 <;> ext1 <;> simp [linesAfterXfer, commitCD_commitAB] <;> cases ic <;> rfl

@[simp] theorem drvSetSingleChannel_table (ic : IcId) (ch : ChannelId) (f : ChannelField) :
    ((drvSetSingleChannel ic ch f s).2).table = s.table := by
  rw [drvSetSingleChannel_eq]; dsimp only; split_ifs <;> simp
@[simp] theorem drvSetSingleChannel_mirror (ic : IcId) (ch : ChannelId) (f : ChannelField) :
    ((drvSetSingleChannel ic ch f s).2).mirror = s.mirror := by
  rw [drvSetSingleChannel_eq]; dsimp only; split_ifs <;> simp
@[simp] theorem drvSetSingleChannel_mode (ic : IcId) (ch : ChannelId) (f : ChannelField) :
    ((drvSetSingleChannel ic ch f s).2).mode = s.mode := by
  rw [drvSetSingleChannel_eq]; dsimp only; split_ifs <;> simp
@[simp] theorem drvSetSingleChannel_pulseWidthMs (ic : IcId) (ch : ChannelId) (f : ChannelField) :
    ((drvSetSingleChannel ic ch f s).2).pulseWidthMs = s.pulseWidthMs := by
  rw [drvSetSingleChannel_eq]; dsimp only; split_ifs <;> simp
@[simp] theorem drvSetSingleChannel_relay (ic : IcId) (ch : ChannelId) (f : ChannelField) :
    ((drvSetSingleChannel ic ch f s).2).relay = s.relay := by
  rw [drvSetSingleChannel_eq]; dsimp only; split_ifs <;> simp
@[simp] theorem drvSetSingleChannel_spiOn (ic : IcId) (ch : ChannelId) (f : ChannelField) :
    ((drvSetSingleChannel ic ch f s).2).spiOn = s.spiOn := by
  rw [drvSetSingleChannel_eq]; dsimp only; split_ifs <;> simp
@[simp] theorem drvSetSingleChannel_phase (ic : IcId) (ch : ChannelId) (f : ChannelField) :
    ((drvSetSingleChannel ic ch f s).2).phase = s.phase := by
  rw [drvSetSingleChannel_eq]; dsimp only; split_ifs <;> simp
@[simp] theorem drvSetSingleChannel_failed (ic : IcId) (ch : ChannelId) (f : ChannelField) :
    ((drvSetSingleChannel ic ch f s).2).failed = s.failed := by
  rw [drvSetSingleChannel_eq]; dsimp only; split_ifs <;> simp
@[simp] theorem drvSetSingleChannel_cfg (ic : IcId) (ch : ChannelId) (f : ChannelField) :
    ((drvSetSingleChannel ic ch f s).2).cfg = s.cfg := by
  rw [drvSetSingleChannel_eq]; dsimp only; split_ifs <;> simp
@[simp] theorem drvSetSingleChannel_inbox (ic : IcId) (ch : ChannelId) (f : ChannelField) :
    ((drvSetSingleChannel ic ch f s).2).inbox = s.inbox := by
  rw [drvSetSingleChannel_eq]; dsimp only; split_ifs <;> simp
@[simp] theorem drvSetSingleChannel_results (ic : IcId) (ch : ChannelId) (f : ChannelField) :
    ((drvSetSingleChannel ic ch f s).2).results = s.results := by
  rw [drvSetSingleChannel_eq]; dsimp only; split_ifs <;> simp

@[simp] theorem drvSetAllChannels_table (ic : IcId) (f : ByChannel ChannelField) :
    ((drvSetAllChannels ic f s).2).table = s.table := by
  rw [drvSetAllChannels_eq]; dsimp only; split_ifs <;> simp
@[simp] theorem drvSetAllChannels_mirror (ic : IcId) (f : ByChannel ChannelField) :
    ((drvSetAllChannels ic f s).2).mirror = s.mirror := by
  rw [drvSetAllChannels_eq]; dsimp only; split_ifs <;> simp
@[simp] theorem drvSetAllChannels_mode (ic : IcId) (f : ByChannel ChannelField) :
    ((drvSetAllChannels ic f s).2).mode = s.mode := by
  rw [drvSetAllChannels_eq]; dsimp only; split_ifs <;> simp
@[simp] theorem drvSetAllChannels_pulseWidthMs (ic : IcId) (f : ByChannel ChannelField) :
    ((drvSetAllChannels ic f s).2).pulseWidthMs = s.pulseWidthMs := by
  rw [drvSetAllChannels_eq]; dsimp only; split_ifs <;> simp
@[simp] theorem drvSetAllChannels_relay (ic : IcId) (f : ByChannel ChannelField) :
    ((drvSetAllChannels ic f s).2).relay = s.relay := by
  rw [drvSetAllChannels_eq]; dsimp only; split_ifs <;> simp
@[simp] theorem drvSetAllChannels_spiOn (ic : IcId) (f : ByChannel ChannelField) :
    ((drvSetAllChannels ic f s).2).spiOn = s.spiOn := by
  rw [drvSetAllChannels_eq]; dsimp only; split_ifs <;> simp
@[simp] theorem drvSetAllChannels_phase (ic : IcId) (f : ByChannel ChannelField) :
    ((drvSetAllChannels ic f s).2).phase = s.phase := by
  rw [drvSetAllChannels_eq]; dsimp only; split_ifs <;> simp
@[simp] theorem drvSetAllChannels_failed (ic : IcId) (f : ByChannel ChannelField) :
    ((drvSetAllChannels ic f s).2).failed = s.failed := by
  rw [drvSetAllChannels_eq]; dsimp only; split_ifs <;> simp
@[simp] theorem drvSetAllChannels_cfg (ic : IcId) (f : ByChannel ChannelField) :
    ((drvSetAllChannels ic f s).2).cfg = s.cfg := by
  rw [drvSetAllChannels_eq]; dsimp only; split_ifs <;> simp
@[simp] theorem drvSetAllChannels_inbox (ic : IcId) (f : ByChannel ChannelField) :
    ((drvSetAllChannels ic f s).2).inbox = s.inbox := by
  rw [drvSetAllChannels_eq]; dsimp only; split_ifs <;> simp
@[simp] theorem drvSetAllChannels_results (ic : IcId) (f : ByChannel ChannelField) :
    ((drvSetAllChannels ic f s).2).results = s.results := by
  rw [drvSetAllChannels_eq]; dsimp only; split_ifs <;> simp

end Sys2Proof.Laws
end

