-- ==== Sys2Proof/Laws/Device.lean ====
section
/-! SUPPORT. What one transfer leaves in the device, case by case, and how a latched payload reads as slots
(20_memory R61, R75, R76). -/

namespace Sys2Proof.Laws

open Machine Safety

variable (s : State)

/-- An IC asleep or in reset gets no frame and latches nothing. -/
theorem devAfterXfer_off (d : DevIc) (l : Lines) (on ok : Bool) (w : U16)
    (h : l.nSleep = false ∨ l.nReset = false) : devAfterXfer d l on w ok = { d with shift := .unknown } := by
  rcases h with h | h <;> simp [devAfterXfer, h]

/-- A strobe that is up already gives no edge. -/
theorem devAfterXfer_noEdge (d : DevIc) (l : Lines) (on ok : Bool) (w : U16)
    (h1 : l.nSleep = true) (h2 : l.nReset = true) (h3 : l.strobe = true) :
    devAfterXfer d l on w ok = { d with shift := if ok && on then .known w else .unknown } := by
  cases ok <;> cases on <;> simp [devAfterXfer, h1, h2, h3]

/-- An IC that listens latches a word with bits 15..13 zero into the register its bit 12 names. -/
theorem devAfterXfer_latched (d : DevIc) (l : Lines) (w : U16)
    (h1 : l.nSleep = true) (h2 : l.nReset = true) (h3 : l.strobe = false) (h4 : w.extractLsb' 13 3 = 0#3) :
    devAfterXfer d l true w true =
      if w.getLsbD 12 then { d with shift := .known w, regCD := .known (w.extractLsb' 0 12) }
      else { d with shift := .known w, regAB := .known (w.extractLsb' 0 12) } := by
  have e : devAfterXfer d l true w true = DevIc.latch { d with shift := .known w } := by
    simp [devAfterXfer, h1, h2, h3]
  rw [e]; simp only [DevIc.latch]; rw [if_neg (not_not_intro h4)]

/-- A failed transfer, or one with the SPI peripheral off, loses both registers. -/
theorem devAfterXfer_lost (d : DevIc) (l : Lines) (on ok : Bool) (w : U16)
    (h1 : l.nSleep = true) (h2 : l.nReset = true) (h3 : l.strobe = false) (h4 : on = false ∨ ok = false) :
    devAfterXfer d l on w ok = ⟨.unknown, .unknown, .unknown⟩ := by
  rcases h4 with h4 | h4 <;> simp [devAfterXfer, h1, h2, h3, h4, DevIc.latch, DevIc.lose]

/-- A reserved word loses both registers. -/
theorem devAfterXfer_reserved (d : DevIc) (l : Lines) (on ok : Bool) (w : U16)
    (h1 : l.nSleep = true) (h2 : l.nReset = true) (h3 : l.strobe = false) (h4 : w.extractLsb' 13 3 ≠ 0#3) :
    (devAfterXfer d l on w ok).regAB = .unknown ∧ (devAfterXfer d l on w ok).regCD = .unknown := by
  cases ok <;> cases on <;> simp [devAfterXfer, h1, h2, h3, h4, DevIc.latch, DevIc.lose]

/-- Everything one transfer run alone does. -/
theorem xferAlone_eq (ic : IcId) (w : U16) :
    xferAlone ic w s =
      { s with
        pin := icSet s.pin ic (linesAfterXfer (icGet s.pin ic))
        dev := icSet s.dev ic (devAfterXfer (icGet s.dev ic) (icGet s.pin ic) s.spiOn w (drawnOk s))
        trace := s.trace ++ xferEvents s.cfg.strobeDelayMs ic w (drawnOk s)
        spiAnswers := s.spiAnswers.tail
        draws := s.draws + 1
        results := s.results ++ [.transfer (drawnOk s)] } := by
  simp only [xferAlone, xferWord_fst, xferWord_snd]; rfl

/-- The words of `WORD_AB` and `WORD_CD`. -/
theorem or_encodeField_AB (b a : ChannelField) : encodeField .chA a ||| encodeField .chB b = wordOf 0 b a :=
  congrArg Prod.fst (assemble_eq ⟨a, b, a, b⟩)

theorem or_encodeField_CD (d c : ChannelField) : encodeField .chC c ||| encodeField .chD d = wordOf 1 d c :=
  congrArg Prod.snd (assemble_eq ⟨c, d, c, d⟩)

/-- The low slot of a payload. -/
@[simp] theorem payload_low (h l : ChannelField) : (h.sub6 ++ l.sub6 : BitVec 12).extractLsb' 0 6 = l.sub6 := by
  rw [← payload_wordOf 0, ← low_wordOf 0 h l]
  apply BitVec.eq_of_getLsbD_eq; intro i hi
  rw [BitVec.getLsbD_extractLsb', BitVec.getLsbD_extractLsb', BitVec.getLsbD_extractLsb']; simp [hi]; try omega

/-- The high slot of a payload. -/
@[simp] theorem payload_high (h l : ChannelField) : (h.sub6 ++ l.sub6 : BitVec 12).extractLsb' 6 6 = h.sub6 := by
  rw [← payload_wordOf 0, ← high_wordOf 0 h l]
  apply BitVec.eq_of_getLsbD_eq; intro i hi
  rw [BitVec.getLsbD_extractLsb', BitVec.getLsbD_extractLsb', BitVec.getLsbD_extractLsb']; simp [hi]; try omega

/-- The members of a field, read from its six bits (30_encoding R91). -/
theorem sub6_bits (f : ChannelField) :
    f.sub6.getLsbD 0 = f.enable ∧ f.sub6.getLsbD 1 = f.phase ∧ f.sub6.extractLsb' 2 3 = f.current ∧
      f.sub6.getLsbD 5 = f.decay := by
  revert f; apply forall_field; decide

/-- An IC awake and out of reset drives its outputs as its registers say. -/
theorem bridgeOutput_awake (ic : IcId) (ch : ChannelId) (h1 : (icGet s.pin ic).nSleep = true)
    (h2 : (icGet s.pin ic).nReset = true) :
    bridgeOutput s ic ch =
      match (icGet s.dev ic).slot ch with
      | .unknown => .unknown
      | .known sub => if sub.getLsbD 0 then .driven (sub.getLsbD 1) (sub.extractLsb' 2 3) (sub.getLsbD 5) else .off := by
  unfold bridgeOutput; rw [h1, h2]; rfl

/-- An IC asleep or in reset drives nothing. -/
theorem bridgeOutput_off (ic : IcId) (ch : ChannelId)
    (h : (icGet s.pin ic).nSleep = false ∨ (icGet s.pin ic).nReset = false) : bridgeOutput s ic ch = .off := by
  unfold bridgeOutput; rw [if_pos]; rcases h with h | h <;> simp [h]

end Sys2Proof.Laws
end

