-- ==== Sys2Proof/Laws/Ops.lean ====
section
/-! SUPPORT. What the shared operations of the commands can do, said once (43_motion_control R191 to R193, R207). -/

namespace Sys2Proof.Laws

open Machine Safety

variable (s : State)

/-- Everything the wake does (43_motion_control R193 step 1). -/
theorem wakeBoth_eq :
    wakeBoth s =
      { s with
        phase := .wake
        pin := ⟨{ s.pin.icA with nSleep := true }, { s.pin.icB with nSleep := true }⟩
        trace := s.trace ++ wakeEvents s.cfg } := by
  ext1 <;> simp [wakeBoth, drvWake, lineSet, icSet, icGet, wakeEvents]
  rfl

/-- Everything the tail does (43_motion_control R193 step 8). -/
theorem unwind_eq :
    unwind s =
      { s with
        phase := .idle
        failed := false
        pin := pinsAsleep
        spiOn := true
        dev := devCleared
        trace := s.trace ++ tailEvents s.cfg } := by
  ext1 <;>
    simp [unwind, drvReset_eq, drvSleep, devAfter_nSleep, lineSet, icSet, icGet, pinsAsleep, devCleared, tailEvents]

/-- Everything the end of an actuation does (60_exceptions R235, R236). -/
theorem finish_eq (r : Result) :
    finish r s =
      { s with
        phase := .idle
        failed := false
        pin := pinsAsleep
        spiOn := true
        dev := devCleared
        trace := s.trace ++ tailEvents s.cfg
        results := s.results ++ [.response r 0] } := by
  rw [finish, unwind_eq, markFailure]
  split <;> ext1 <;> simp

/-- Everything `init()` does before its response (43_motion_control R191). -/
theorem initRun_eq :
    initRun s =
      { s with
        table := s.cfg.modes.map fun e => (e.mode, e.preset)
        pending := ⟨.zero, .zero⟩
        committed := ⟨.zero, .zero⟩
        pin := pinsAwake
        spiOn := true
        relay := s.cfg.relayInit
        mode := .rest
        mirror := presetDefault s.cfg .rest
        failed := false
        phase := .idle
        trace := s.trace ++ initEvents s.cfg } := by
  ext1 <;> simp [initRun, seedTable, drvInit_eq, pinsAwake, initEvents, icSet]

/-- Everything one phase can do (43_motion_control R192): IC_A's call failed and is the result, or it succeeded and the
result is IC_B's. -/
theorem both_eq (F : FieldSets) :
    both F s =
      if (drvSetAllChannels .icA F.icA s).1 = .ok then drvSetAllChannels .icB F.icB (drvSetAllChannels .icA F.icA s).2
      else drvSetAllChannels .icA F.icA s := rfl

/-- The commit of a mode (43_motion_control R193 step 7). -/
theorem commitMode_eq (m : Mode) (p : Preset) :
    commitMode m p s =
      { s with
        phase := .commit
        relay := pumpFor s.cfg m p
        mirror := p
        mode := m
        trace := s.trace ++ [.relay (pumpFor s.cfg m p)] } := by
  ext1 <;> simp [commitMode]

/-- The hold (43_motion_control R193 step 5). -/
theorem hold_eq (ms : U32) : hold ms s = { s with phase := .hold, trace := s.trace ++ [.delay ms] } := by
  ext1 <;> simp [hold, devAfter, eventIc]

@[simp] theorem both_table (F : FieldSets) : (both F s).2.table = s.table := by
  rw [both_eq]; split <;> simp
@[simp] theorem both_mirror (F : FieldSets) : (both F s).2.mirror = s.mirror := by
  rw [both_eq]; split <;> simp
@[simp] theorem both_mode (F : FieldSets) : (both F s).2.mode = s.mode := by
  rw [both_eq]; split <;> simp
@[simp] theorem both_pulseWidthMs (F : FieldSets) : (both F s).2.pulseWidthMs = s.pulseWidthMs := by
  rw [both_eq]; split <;> simp
@[simp] theorem both_relay (F : FieldSets) : (both F s).2.relay = s.relay := by
  rw [both_eq]; split <;> simp
@[simp] theorem both_spiOn (F : FieldSets) : (both F s).2.spiOn = s.spiOn := by
  rw [both_eq]; split <;> simp
@[simp] theorem both_phase (F : FieldSets) : (both F s).2.phase = s.phase := by
  rw [both_eq]; split <;> simp
@[simp] theorem both_failed (F : FieldSets) : (both F s).2.failed = s.failed := by
  rw [both_eq]; split <;> simp
@[simp] theorem both_cfg (F : FieldSets) : (both F s).2.cfg = s.cfg := by
  rw [both_eq]; split <;> simp
@[simp] theorem both_inbox (F : FieldSets) : (both F s).2.inbox = s.inbox := by
  rw [both_eq]; split <;> simp
@[simp] theorem both_results (F : FieldSets) : (both F s).2.results = s.results := by
  rw [both_eq]; split <;> simp

@[simp] theorem panicPhase_table (F : FieldSets) : (panicPhase F s).table = s.table := by
  simp [panicPhase]
@[simp] theorem panicPhase_mirror (F : FieldSets) : (panicPhase F s).mirror = s.mirror := by
  simp [panicPhase]
@[simp] theorem panicPhase_mode (F : FieldSets) : (panicPhase F s).mode = s.mode := by
  simp [panicPhase]
@[simp] theorem panicPhase_pulseWidthMs (F : FieldSets) : (panicPhase F s).pulseWidthMs = s.pulseWidthMs := by
  simp [panicPhase]
@[simp] theorem panicPhase_relay (F : FieldSets) : (panicPhase F s).relay = s.relay := by
  simp [panicPhase]
@[simp] theorem panicPhase_spiOn (F : FieldSets) : (panicPhase F s).spiOn = s.spiOn := by
  simp [panicPhase]
@[simp] theorem panicPhase_phase (F : FieldSets) : (panicPhase F s).phase = s.phase := by
  simp [panicPhase]
@[simp] theorem panicPhase_failed (F : FieldSets) : (panicPhase F s).failed = s.failed := by
  simp [panicPhase]
@[simp] theorem panicPhase_cfg (F : FieldSets) : (panicPhase F s).cfg = s.cfg := by
  simp [panicPhase]
@[simp] theorem panicPhase_inbox (F : FieldSets) : (panicPhase F s).inbox = s.inbox := by
  simp [panicPhase]
@[simp] theorem panicPhase_results (F : FieldSets) : (panicPhase F s).results = s.results := by
  simp [panicPhase]

@[simp] theorem panicCycle_table (w : U32) (d : Bool) : (panicCycle w d s).table = s.table := by
  simp [panicCycle, hold_eq]
@[simp] theorem panicCycle_mirror (w : U32) (d : Bool) : (panicCycle w d s).mirror = s.mirror := by
  simp [panicCycle, hold_eq]
@[simp] theorem panicCycle_mode (w : U32) (d : Bool) : (panicCycle w d s).mode = s.mode := by
  simp [panicCycle, hold_eq]
@[simp] theorem panicCycle_pulseWidthMs (w : U32) (d : Bool) : (panicCycle w d s).pulseWidthMs = s.pulseWidthMs := by
  simp [panicCycle, hold_eq]
@[simp] theorem panicCycle_relay (w : U32) (d : Bool) : (panicCycle w d s).relay = s.relay := by
  simp [panicCycle, hold_eq]
@[simp] theorem panicCycle_spiOn (w : U32) (d : Bool) : (panicCycle w d s).spiOn = s.spiOn := by
  simp [panicCycle, hold_eq]
@[simp] theorem panicCycle_failed (w : U32) (d : Bool) : (panicCycle w d s).failed = s.failed := by
  simp [panicCycle, hold_eq]
@[simp] theorem panicCycle_cfg (w : U32) (d : Bool) : (panicCycle w d s).cfg = s.cfg := by
  simp [panicCycle, hold_eq]
@[simp] theorem panicCycle_inbox (w : U32) (d : Bool) : (panicCycle w d s).inbox = s.inbox := by
  simp [panicCycle, hold_eq]
@[simp] theorem panicCycle_results (w : U32) (d : Bool) : (panicCycle w d s).results = s.results := by
  simp [panicCycle, hold_eq]

theorem panicCycles_table (ws : List U32) : (panicCycles ws s).table = s.table := by
  induction ws generalizing s with
  | nil => rfl
  | cons w ws ih => exact (ih _).trans (by simp)
theorem panicCycles_mirror (ws : List U32) : (panicCycles ws s).mirror = s.mirror := by
  induction ws generalizing s with
  | nil => rfl
  | cons w ws ih => exact (ih _).trans (by simp)
theorem panicCycles_mode (ws : List U32) : (panicCycles ws s).mode = s.mode := by
  induction ws generalizing s with
  | nil => rfl
  | cons w ws ih => exact (ih _).trans (by simp)
theorem panicCycles_pulseWidthMs (ws : List U32) : (panicCycles ws s).pulseWidthMs = s.pulseWidthMs := by
  induction ws generalizing s with
  | nil => rfl
  | cons w ws ih => exact (ih _).trans (by simp)
theorem panicCycles_relay (ws : List U32) : (panicCycles ws s).relay = s.relay := by
  induction ws generalizing s with
  | nil => rfl
  | cons w ws ih => exact (ih _).trans (by simp)
theorem panicCycles_spiOn (ws : List U32) : (panicCycles ws s).spiOn = s.spiOn := by
  induction ws generalizing s with
  | nil => rfl
  | cons w ws ih => exact (ih _).trans (by simp)
theorem panicCycles_failed (ws : List U32) : (panicCycles ws s).failed = s.failed := by
  induction ws generalizing s with
  | nil => rfl
  | cons w ws ih => exact (ih _).trans (by simp)
theorem panicCycles_cfg (ws : List U32) : (panicCycles ws s).cfg = s.cfg := by
  induction ws generalizing s with
  | nil => rfl
  | cons w ws ih => exact (ih _).trans (by simp)
theorem panicCycles_inbox (ws : List U32) : (panicCycles ws s).inbox = s.inbox := by
  induction ws generalizing s with
  | nil => rfl
  | cons w ws ih => exact (ih _).trans (by simp)
theorem panicCycles_results (ws : List U32) : (panicCycles ws s).results = s.results := by
  induction ws generalizing s with
  | nil => rfl
  | cons w ws ih => exact (ih _).trans (by simp)

/-! ## Validation (40_codec R120, 42_presets R171) -/

/-- Both outcomes of `mk_field`. -/
theorem mkField_eq (decay current phase enable : U8) (out : ChannelField) :
    mkField decay current phase enable out =
      if decay ≤ 1#8 ∧ current ≤ 7#8 ∧ phase ≤ 1#8 ∧ enable ≤ 1#8 then
        (.ok, ⟨decay.getLsbD 0, current.extractLsb' 0 3, phase.getLsbD 0, enable.getLsbD 0⟩)
      else (.invalidParameter, out) := by
  unfold mkField
  by_cases h : decay ≤ 1#8 ∧ current ≤ 7#8 ∧ phase ≤ 1#8 ∧ enable ≤ 1#8
  · rw [if_pos h, if_neg]
    simp only [not_or, BitVec.not_lt, gt_iff_lt]
    exact h
  · rw [if_neg h, if_pos]
    by_contra hn
    simp only [not_or, BitVec.not_lt, gt_iff_lt] at hn
    exact h hn

/-- Both outcomes of validating a target. -/
theorem targetField_eq (t : ValveTarget) (enable : Bool) :
    targetField t enable =
      if t.inRange then some ⟨t.decay.getLsbD 0, t.current.extractLsb' 0 3, t.direction.getLsbD 0, enable⟩ else none := by
  have e1 : bit8 enable ≤ 1#8 := by cases enable <;> decide
  have e2 : (bit8 enable).getLsbD 0 = enable := by cases enable <;> decide
  unfold targetField
  rw [mkField_eq]
  by_cases h : t.inRange = true
  · have h' : t.decay ≤ 1#8 ∧ t.current ≤ 7#8 ∧ t.direction ≤ 1#8 := by
      simp only [ValveTarget.inRange, Bool.and_eq_true, decide_eq_true_eq] at h
      exact ⟨h.2, h.1.2, h.1.1⟩
    rw [if_pos ⟨h'.1, h'.2.1, h'.2.2, e1⟩, if_pos h, e2]
  · rw [if_neg h, if_neg]
    intro hc
    apply h
    simp only [ValveTarget.inRange, Bool.and_eq_true, decide_eq_true_eq]
    exact ⟨⟨hc.2.2.1, hc.2.1⟩, hc.1⟩

/-! ## The two actuations, from the wake to the tail (43_motion_control R193, R209) -/

/-- The state when validation begins: `failed` cleared, both ICs woken and settled. -/
def woken : State := (wakeBoth (s.setFailed false)).setPhase .validate

theorem woken_eq :
    woken s =
      { s with
        phase := .validate
        failed := false
        pin := ⟨{ s.pin.icA with nSleep := true }, { s.pin.icB with nSleep := true }⟩
        trace := s.trace ++ wakeEvents s.cfg } := by
  rw [woken, wakeBoth_eq]; rfl

@[simp] theorem woken_cfg : (woken s).cfg = s.cfg := by rw [woken_eq]
@[simp] theorem woken_table : (woken s).table = s.table := by rw [woken_eq]
@[simp] theorem woken_mirror : (woken s).mirror = s.mirror := by rw [woken_eq]
@[simp] theorem woken_mode : (woken s).mode = s.mode := by rw [woken_eq]
@[simp] theorem woken_relay : (woken s).relay = s.relay := by rw [woken_eq]
@[simp] theorem woken_pulseWidthMs : (woken s).pulseWidthMs = s.pulseWidthMs := by rw [woken_eq]
@[simp] theorem woken_pending : (woken s).pending = s.pending := by rw [woken_eq]
@[simp] theorem woken_committed : (woken s).committed = s.committed := by rw [woken_eq]
@[simp] theorem woken_spiOn : (woken s).spiOn = s.spiOn := by rw [woken_eq]
@[simp] theorem woken_failed : (woken s).failed = false := by rw [woken_eq]
@[simp] theorem woken_dev : (woken s).dev = s.dev := by rw [woken_eq]
@[simp] theorem woken_inbox : (woken s).inbox = s.inbox := by rw [woken_eq]
@[simp] theorem woken_results : (woken s).results = s.results := by rw [woken_eq]
@[simp] theorem woken_spiAnswers : (woken s).spiAnswers = s.spiAnswers := by rw [woken_eq]
@[simp] theorem woken_draws : (woken s).draws = s.draws := by rw [woken_eq]
@[simp] theorem woken_trace : (woken s).trace = s.trace ++ wakeEvents s.cfg := by rw [woken_eq]
@[simp] theorem woken_pin :
    (woken s).pin = ⟨{ s.pin.icA with nSleep := true }, { s.pin.icB with nSleep := true }⟩ := by rw [woken_eq]

/-- `set_mode` from the wake on: validation, the actuation, the tail. -/
theorem setModeRun_eq (m : Mode) :
    setModeRun m s =
      match route s.cfg (tableGet s.table m) true, route s.cfg (tableGet s.table m) false with
      | some Fon, some Foff =>
        finish (actuate m (tableGet s.table m) Fon Foff (woken s)).1 (actuate m (tableGet s.table m) Fon Foff (woken s)).2
      | _, _ => finish .invalidParameter (woken s) := by
  have e : validateAndActuate m (tableGet s.table m) (wakeBoth (s.setFailed false)) =
      match route s.cfg (tableGet s.table m) true, route s.cfg (tableGet s.table m) false with
      | some Fon, some Foff => actuate m (tableGet s.table m) Fon Foff (woken s)
      | _, _ => (.invalidParameter, woken s) := by
    simp only [validateAndActuate]
    rw [show ((wakeBoth (s.setFailed false)).setPhase .validate).cfg = s.cfg from woken_cfg s]
    rfl
  have ht : (wakeBoth (s.setFailed false)).table = s.table := by rw [wakeBoth_eq]; rfl
  simp only [setModeRun, ht, e]
  cases route s.cfg (tableGet s.table m) true <;> cases route s.cfg (tableGet s.table m) false <;> rfl

/-- `valve_override` from the wake on: validation, the two single-channel commits, the tail. -/
theorem overrideRun_eq (v : ValveId) (direction : Bool) :
    overrideRun v direction s =
      match targetField (overrideTarget s v direction) true, targetField (overrideTarget s v direction) false with
      | some fon, some foff =>
        finish (overridePulse v direction fon foff (woken s)).1 (overridePulse v direction fon foff (woken s)).2
      | _, _ => finish .invalidParameter (woken s) := by
  have e : overrideTarget (woken s) v direction = overrideTarget s v direction := by
    simp only [overrideTarget, woken_mirror]
  rw [← e]
  rfl

/-- A command that is accepted runs; any other is refused. -/
theorem whenAccepted_idle (run : State → State) (h : s.phase = .idle) : whenAccepted s run = run s := by
  simp [whenAccepted, accepted, h]

theorem whenAccepted_refused (run : State → State) (h : s.phase ≠ .idle) : whenAccepted s run = refuse s := by
  simp [whenAccepted, accepted, h]

end Sys2Proof.Laws
end

