-- ==== Sys2Proof/Laws/PerInstr.lean ====
section
/-! SUPPORT. One statement about every instruction, a lemma per constructor: its encoding matches its own row of
spec/opcode_table.json, by the row's match and mask. -/

namespace Sys2Proof.Laws

/-- A command frame with these fixed bits. -/
def IsCommand (f : Frame) (rowMask rowMatch : BitVec 40) : Prop := ∃ w, f = .cmd40 w ∧ w &&& rowMask = rowMatch

/-- An SPI word for this IC with these fixed bits. -/
def IsWord (f : Frame) (ic : IcId) (rowMask rowMatch : U16) : Prop := ∃ w, f = .word16 ic w ∧ w &&& rowMask = rowMatch

/-- A contribution of this channel with these fixed bits. -/
def IsContribution (f : Frame) (ch : ChannelId) (rowMask rowMatch : U16) : Prop :=
  ∃ w, f = .enc16 ch w ∧ w &&& rowMask = rowMatch

/-- The encoding of an instruction matches its row. -/
def MatchesRow.Statement (i : Instr) : Prop :=
  match i with
  | .init => IsCommand (encode i) 0xFF00000000 0x0000000000
  | .setMode _ => IsCommand (encode i) 0xFF00000000 0x0100000000
  | .togglePump => IsCommand (encode i) 0xFF00000000 0x0200000000
  | .setCurrent _ => IsCommand (encode i) 0xFF00000000 0x0300000000
  | .getCurrent => IsCommand (encode i) 0xFF00000000 0x0400000000
  | .setPulseWidthMs _ => IsCommand (encode i) 0xFF00000000 0x0500000000
  | .getPulseWidthMs => IsCommand (encode i) 0xFF00000000 0x0600000000
  | .getMode => IsCommand (encode i) 0xFF00000000 0x0700000000
  | .getValveDirection _ => IsCommand (encode i) 0xFF00000000 0x0800000000
  | .panicRecover => IsCommand (encode i) 0xFF00000000 0x0900000000
  | .sleepDrivers => IsCommand (encode i) 0xFF00000000 0x0A00000000
  | .valveOverride _ _ => IsCommand (encode i) 0xFFFFFFFEF8 0x0B00000000
  | .wordAb ic _ _ => IsWord (encode i) ic 0xF000 0x0000
  | .wordCd ic _ _ => IsWord (encode i) ic 0xF000 0x1000
  | .encodeChA _ => IsContribution (encode i) .chA 0xFFC0 0x0000
  | .encodeChB _ => IsContribution (encode i) .chB 0xF03F 0x0000
  | .encodeChC _ => IsContribution (encode i) .chC 0xFFC0 0x1000
  | .encodeChD _ => IsContribution (encode i) .chD 0xF03F 0x1000
  | .sub6 _ => ∃ w, encode i = .sub6 w
  | .rsp40 _ _ => ∃ w, encode i = .rsp40 w

/-- The opcode byte of a frame is what a row's mask leaves. -/
theorem frameOf_and_mask (h : U8) (l : U32) : frameOf h l &&& 0xFF00000000#40 = h ++ 0#32 := by
  rw [show (0xFF00000000#40 : BitVec 40) = 0xFF#8 ++ 0#32 by decide, frameOf, BitVec.and_append,
    show (0xFF#8 : BitVec 8) = BitVec.allOnes 8 by decide, BitVec.and_allOnes, BitVec.and_zero]

/-- Bits 15..12 of a word are what its row's mask leaves. -/
theorem wordOf_and_mask (op : BitVec 4) (h l : ChannelField) : wordOf op h l &&& 0xF000#16 = op ++ 0#12 := by
  apply BitVec.eq_of_getLsbD_eq; intro i hi
  rw [BitVec.getLsbD_and, getLsbD_wordOf, BitVec.getLsbD_append]
  interval_cases i <;> simp

namespace MatchesRow

theorem init : Statement .init := ⟨_, rfl, by decide⟩
theorem setMode (code : U32) : Statement (.setMode code) := ⟨_, rfl, (frameOf_and_mask _ _).trans (by decide)⟩
theorem togglePump : Statement .togglePump := ⟨_, rfl, by decide⟩
theorem setCurrent (level : U32) : Statement (.setCurrent level) := ⟨_, rfl, (frameOf_and_mask _ _).trans (by decide)⟩
theorem getCurrent : Statement .getCurrent := ⟨_, rfl, by decide⟩
theorem setPulseWidthMs (ms : U32) : Statement (.setPulseWidthMs ms) :=
  ⟨_, rfl, (frameOf_and_mask _ _).trans (by decide)⟩
theorem getPulseWidthMs : Statement .getPulseWidthMs := ⟨_, rfl, by decide⟩
theorem getMode : Statement .getMode := ⟨_, rfl, by decide⟩
theorem getValveDirection (index : U32) : Statement (.getValveDirection index) :=
  ⟨_, rfl, (frameOf_and_mask _ _).trans (by decide)⟩
theorem panicRecover : Statement .panicRecover := ⟨_, rfl, by decide⟩
theorem sleepDrivers : Statement .sleepDrivers := ⟨_, rfl, by decide⟩
theorem valveOverride (index : ValveId) (direction : Bool) : Statement (.valveOverride index direction) :=
  ⟨_, rfl, by cases index <;> cases direction <;> decide⟩
theorem wordAb (ic : IcId) (b a : ChannelField) : Statement (.wordAb ic b a) :=
  ⟨_, rfl, (wordOf_and_mask _ _ _).trans (by decide)⟩
theorem wordCd (ic : IcId) (d c : ChannelField) : Statement (.wordCd ic d c) :=
  ⟨_, rfl, (wordOf_and_mask _ _ _).trans (by decide)⟩
theorem encodeChA (f : ChannelField) : Statement (.encodeChA f) := ⟨_, rfl, by revert f; apply forall_field; decide⟩
theorem encodeChB (f : ChannelField) : Statement (.encodeChB f) := ⟨_, rfl, by revert f; apply forall_field; decide⟩
theorem encodeChC (f : ChannelField) : Statement (.encodeChC f) := ⟨_, rfl, by revert f; apply forall_field; decide⟩
theorem encodeChD (f : ChannelField) : Statement (.encodeChD f) := ⟨_, rfl, by revert f; apply forall_field; decide⟩
theorem sub6 (f : ChannelField) : Statement (.sub6 f) := ⟨_, rfl⟩
theorem rsp40 (result : Result) (value : U32) : Statement (.rsp40 result value) := ⟨_, rfl⟩

end MatchesRow

end Sys2Proof.Laws
end

