-- ==== Sys2Proof/Laws/Presets.lean ====
section
/-! SUPPORT. The laws of the mode and valve lookups, of `route` and of a code's bit 0 (42_presets R170, R171, R176,
43_motion_control R197). -/

namespace Sys2Proof.Laws

open Machine Safety

/-! ## Modes and codes (00_scope R9) -/

theorem entryOfCode_mem {c : Config} {code : U32} {e : ModeEntry} (h : entryOfCode c code = some e) : e ∈ c.modes ∧ e.code = code := by
  refine ⟨List.mem_of_find?_eq_some h, ?_⟩
  have := List.find?_some h; simpa using this

/-- Under a valid configuration a member is found by its name. -/
theorem entryOf_member {c : Config} (hv : c.Valid) {e : ModeEntry} (he : e ∈ c.modes) : entryOf c e.mode = some e := by
  unfold entryOf
  have hn := hv.modesNodup
  revert he hn; generalize c.modes = l
  intro he hn
  induction l with
  | nil => cases he
  | cons x l ih =>
    simp only [List.map_cons, List.nodup_cons, List.mem_map] at hn
    rcases List.mem_cons.1 he with rfl | he
    · simp
    · rw [List.find?_cons_of_neg, ih he hn.2]
      simp only [decide_eq_true_eq]; intro hc; exact hn.1 ⟨e, he, hc.symm⟩

/-- Under a valid configuration a member is found by its code. -/
theorem entryOfCode_member {c : Config} (hv : c.Valid) {e : ModeEntry} (he : e ∈ c.modes) : entryOfCode c e.code = some e := by
  unfold entryOfCode
  have hn := hv.codesNodup
  revert he hn; generalize c.modes = l
  intro he hn
  induction l with
  | nil => cases he
  | cons x l ih =>
    simp only [List.map_cons, List.nodup_cons, List.mem_map] at hn
    rcases List.mem_cons.1 he with rfl | he
    · simp
    · rw [List.find?_cons_of_neg, ih he hn.2]
      simp only [decide_eq_true_eq]; intro hc; exact hn.1 ⟨e, he, hc.symm⟩

/-- A paired mode is a member. -/
theorem modePaired_entry {c : Config} {m : Mode} (h : modePaired c m = true) : ∃ e ∈ c.modes, entryOf c m = some e ∧ e.mode = m ∧ e.paired = true ∧ modeCode c m = e.code := by
  unfold modePaired at h
  cases he : entryOf c m with
  | none => rw [he] at h; cases h
  | some e =>
    rw [he] at h
    have := List.find?_some he
    exact ⟨e, List.mem_of_find?_eq_some he, rfl, by simpa using this, h, by simp [modeCode, he]⟩

/-! ## Bit 0 of a code (42_presets R176, 43_motion_control R197) -/

/-- `xor 1` flips bit 0 and no other. -/
theorem xor_one_bits (x : U32) : (x ^^^ 1#32).getLsbD 0 = !x.getLsbD 0 ∧ ∀ n, 1 ≤ n → (x ^^^ 1#32).getLsbD n = x.getLsbD n := by
  refine ⟨by rw [BitVec.getLsbD_xor]; simp, ?_⟩
  intro n hn
  rw [BitVec.getLsbD_xor]
  have : (1#32).getLsbD n = false := by
    rw [BitVec.getLsbD_one]; simp; omega
  rw [this]; simp

/-- Replacing bit 0 keeps the code or flips it. -/
theorem withBit0_eq (x : U32) (b : Bool) : withBit0 x b = if x.getLsbD 0 = b then x else x ^^^ 1#32 := by
  apply BitVec.eq_of_getLsbD_eq; intro i hi
  have key : (withBit0 x b).getLsbD i = if i = 0 then b else x.getLsbD i := by
    unfold withBit0
    rw [BitVec.getLsbD_or, BitVec.getLsbD_and, BitVec.getLsbD_setWidth]
    interval_cases i <;> cases b <;> simp
  rw [key]
  have := xor_one_bits x
  by_cases h0 : i = 0
  · subst h0; rw [if_pos rfl]
    by_cases hx : x.getLsbD 0 = b
    · rw [if_pos hx]; exact hx.symm
    · rw [if_neg hx, this.1]; revert hx; cases b <;> cases x.getLsbD 0 <;> decide
  · rw [if_neg h0]
    by_cases hx : x.getLsbD 0 = b
    · rw [if_pos hx]
    · rw [if_neg hx, this.2 i (by omega)]

/-- The bits of a code whose bit 0 was replaced. -/
theorem getLsbD_withBit0 (x : U32) (b : Bool) : (withBit0 x b).getLsbD 0 = b ∧ ∀ n, 1 ≤ n → (withBit0 x b).getLsbD n = x.getLsbD n := by
  rw [withBit0_eq]
  have := xor_one_bits x
  by_cases hx : x.getLsbD 0 = b
  · rw [if_pos hx]; exact ⟨hx, fun _ _ => rfl⟩
  · rw [if_neg hx]; refine ⟨?_, this.2⟩; rw [this.1]; revert hx; cases b <;> cases x.getLsbD 0 <;> decide

/-- For a paired mode the partner is a paired member, with bit 0 replaced. -/
theorem modeWithPump_paired {c : Config} {m : Mode} (hv : c.Valid) (h : modePaired c m = true) (b : Bool) :
  modePaired c (modeWithPump c m b) = true ∧ modeCode c (modeWithPump c m b) = withBit0 (modeCode c m) b ∧
  ((modeCode c m).getLsbD 0 = b → modeWithPump c m b = m) := by
    obtain ⟨e, hm, h1, h2, h3, h4⟩ := modePaired_entry h
    obtain ⟨q, hq, hc, hp⟩ := hv.partnerPaired e hm h3
    have e2 := entryOf_member hv hq
    unfold modeWithPump
    rw [if_pos h, withBit0_eq, h4]
    by_cases hne : e.code.getLsbD 0 = b
    · rw [if_pos hne, entryOfCode_member hv hm]; simp only [h2]; exact ⟨h, h4, fun _ => trivial⟩
    · rw [if_neg hne, ← hc, entryOfCode_member hv hq]; simp only
      exact ⟨by simp [modePaired, e2, hp], by simp [modeCode, e2], fun hh => absurd hh hne⟩

/-! ## Valves and `route` (42_presets R170 to R173) -/

theorem le_one_iff (x : U8) : x ≤ 1#8 ↔ x.toNat ≤ 1 := by simp [BitVec.le_def]

theorem le_seven_iff (x : U8) : x ≤ 7#8 ↔ x.toNat ≤ 7 := by simp [BitVec.le_def]

/-- A target is in range. -/
theorem inRange_iff (t : ValveTarget) : t.inRange = true ↔ ¬ (t.direction.toNat > 1 ∨ t.current.toNat > 7 ∨ t.decay.toNat > 1) := by
  simp only [ValveTarget.inRange, Bool.and_eq_true, decide_eq_true_eq, le_one_iff, le_seven_iff]; omega

theorem mem_valveOrder (v : ValveId) : v ∈ valveOrder := by cases v <;> decide

/-- A channel read after a channel write. -/
theorem chGet_chSet (x : ByChannel ChannelField) (a b : ChannelId) (f : ChannelField) : chGet (chSet x a f) b = if a = b then f else chGet x b := by
  cases a <;> cases b <;> rfl

/-- A field read after a field write. -/
theorem chGet_setField (F : FieldSets) (p q : IcId × ChannelId) (f : ChannelField) :
  chGet (icGet (setField F p.1 p.2 f) q.1) q.2 = if p = q then f else chGet (icGet F q.1) q.2 := by
  obtain ⟨a, b⟩ := p; obtain ⟨c, d⟩ := q
  cases a <;> cases c <;> simp [setField, icGet, icSet, chGet_chSet]

/-- `route` stops exactly at a target out of range. -/
theorem routeFrom_none_iff (c : Config) (p : Preset) (en : Bool) (vs : List ValveId) (F : FieldSets) :
  routeFrom c p en vs F = none ↔ ∃ v ∈ vs, (valveGet p.valve v).inRange = false := by
  induction vs generalizing F with
  | nil => simp [routeFrom]
  | cons v vs ih =>
    simp only [routeFrom, targetField_eq]
    by_cases h : (valveGet p.valve v).inRange = true
    · rw [if_pos h]; simp only [ih]; simp [h]
    · rw [if_neg h]; simp at h; simp [h]

/-- What `route` writes: every listed valve's channel, and no other valve's. -/
theorem routeFrom_some_get (c : Config) (p : Preset) (en : Bool) (vs : List ValveId) (F G : FieldSets)
  (hinj : ∀ v w, valveLookup c v = valveLookup c w → v = w) (hnd : vs.Nodup)
  (h : routeFrom c p en vs F = some G) :
  (∀ v ∈ vs, some (chGet (icGet G (valveLookup c v).1) (valveLookup c v).2) = targetField (valveGet p.valve v) en) ∧
  ∀ v, v ∉ vs → chGet (icGet G (valveLookup c v).1) (valveLookup c v).2 = chGet (icGet F (valveLookup c v).1) (valveLookup c v).2 := by
  induction vs generalizing F with
  | nil => simp only [routeFrom, Option.some.injEq] at h; subst h; simp
  | cons v vs ih =>
    simp only [routeFrom] at h
    cases ht : targetField (valveGet p.valve v) en with
    | none => rw [ht] at h; cases h
    | some f =>
      rw [ht] at h
      obtain ⟨a, b⟩ := ih _ (List.nodup_cons.1 hnd).2 h
      refine ⟨?_, ?_⟩
      · intro w hw
        rcases List.mem_cons.1 hw with rfl | hw
        · rw [b w (List.nodup_cons.1 hnd).1, chGet_setField, if_pos rfl, ht]
        · exact a w hw
      · intro w hw
        simp only [List.mem_cons, not_or] at hw
        rw [b w hw.2, chGet_setField, if_neg]
        intro hc; exact hw.1 (hinj _ _ hc).symm

/-- The index of a valve (00_scope R8). -/
def valveNumber : ValveId → Fin 8
  | .v0 => 0 | .v1 => 1 | .v2 => 2 | .v3 => 3 | .v4 => 4 | .v5 => 5 | .v6 => 6 | .v7 => 7

/-- Distinct valves have distinct channels (the map has eight distinct pairs). -/
theorem valveLookup_injective (c : Config) (h : c.valveMap.toList.Nodup) (v w : ValveId) (e : valveLookup c v = valveLookup c w) : v = w := by
  simp only [ByValve.toList] at h
  have := List.nodup_iff_injective_get.1 h
  have h2 : ∀ v : ValveId, valveLookup c v = [c.valveMap.v0, c.valveMap.v1, c.valveMap.v2, c.valveMap.v3, c.valveMap.v4, c.valveMap.v5, c.valveMap.v6, c.valveMap.v7].get (valveNumber v) := by
    intro v; cases v <;> rfl
  rw [h2, h2] at e
  have := this e
  revert this
  cases v <;> cases w <;> simp [valveNumber]

/-- Every channel of both ICs is some valve's. -/
theorem valveLookup_surjective (c : Config) (h : c.valveMap.toList.Nodup) (ic : IcId) (ch : ChannelId) : ∃ v, valveLookup c v = (ic, ch) := by
  have hs : c.valveMap.toList.Subperm [(.icA, .chA), (.icA, .chB), (.icA, .chC), (.icA, .chD), (.icB, .chA), (.icB, .chB), (.icB, .chC), (.icB, .chD)] := by
    apply List.subperm_of_subset h
    rintro ⟨a, b⟩ -
    cases a <;> cases b <;> decide
  have hp := hs.perm_of_length_le (by simp [ByValve.toList])
  have : (ic, ch) ∈ c.valveMap.toList := by
    rw [hp.mem_iff]; cases ic <;> cases ch <;> decide
  simp only [ByValve.toList, List.mem_cons, List.not_mem_nil, or_false] at this
  rcases this with h | h | h | h | h | h | h | h
  · exact ⟨.v0, h.symm⟩
  · exact ⟨.v1, h.symm⟩
  · exact ⟨.v2, h.symm⟩
  · exact ⟨.v3, h.symm⟩
  · exact ⟨.v4, h.symm⟩
  · exact ⟨.v5, h.symm⟩
  · exact ⟨.v6, h.symm⟩
  · exact ⟨.v7, h.symm⟩

/-- A `u8` of 0 or 1 and its bit 0. -/
theorem getLsbD_zero_toNat (x : U8) (h : x.toNat ≤ 1) : (x.getLsbD 0).toNat = x.toNat := by
  rcases (by omega : x.toNat = 0 ∨ x.toNat = 1) with h | h <;> simp [BitVec.getLsbD, h]

end Sys2Proof.Laws
end

