-- ==== Sys2Proof/Laws/Replay.lean ====
section
/-! SUPPORT. The outside of the block (lines, SPI peripheral, relay, ICs) is what the events of the trace make of it: one
lemma per operation that emits, and how such lemmas compose (00_scope R11, R12; 20_memory R75). -/

namespace Sys2Proof.Laws

open Machine Safety

/-- What an onlooker outside the block can see. -/
def outside (s : State) : ByIc Lines × Bool × Bool × ByIc DevIc := (s.pin, s.spiOn, s.relay, s.dev)

theorem outside_eq {s t : State} :
    outside t = outside s ↔ t.pin = s.pin ∧ t.spiOn = s.spiOn ∧ t.relay = s.relay ∧ t.dev = s.dev := by
  simp [outside]

/-- What an event makes of the outside depends on the outside alone. -/
theorem replayEvent_congr {s t : State} (h : outside t = outside s) (e : Event) :
    outside (replayEvent t e) = outside (replayEvent s e) := by
  obtain ⟨h1, h2, h3, h4⟩ := outside_eq.mp h
  cases e <;> simp [outside, replayEvent, devAfter, h1, h2, h3, h4]

theorem replay_congr {s t : State} (h : outside t = outside s) (es : List Event) :
    outside (replay t es) = outside (replay s es) := by
  induction es generalizing s t with
  | nil => exact h
  | cons e es ih => exact ih (replayEvent_congr h e)

theorem replay_append (s : State) (es fs : List Event) : replay s (es ++ fs) = replay (replay s es) fs :=
  List.foldl_append

/-- `t` comes after `s` by events that account for its outside. -/
def Replayed (s t : State) : Prop := ∃ es, t.trace = s.trace ++ es ∧ outside t = outside (replay s es)

theorem Replayed.trans {s t u : State} (h : Replayed s t) (h' : Replayed t u) : Replayed s u := by
  obtain ⟨es, he, ho⟩ := h
  obtain ⟨fs, hf, hp⟩ := h'
  refine ⟨es ++ fs, by rw [hf, he, List.append_assoc], ?_⟩
  rw [hp, replay_append, replay_congr ho]

theorem Replayed.refl (s : State) : Replayed s s := ⟨[], by simp, rfl⟩

/-- A change to neither the trace nor the outside. -/
theorem Replayed.of_eq {s t u : State} (h : Replayed s t) (h1 : u.trace = t.trace) (h2 : outside u = outside t) :
    Replayed s u := by
  obtain ⟨es, he, ho⟩ := h
  exact ⟨es, h1.trans he, h2.trans ho⟩

/-- An event and the level it drives. -/
theorem Replayed.event {s t u : State} (h : Replayed s t) (e : Event) (h1 : u.trace = t.trace ++ [e])
    (h2 : outside u = outside (replayEvent t e)) : Replayed s u := h.trans ⟨[e], h1, h2⟩

variable {s t : State}

theorem Replayed.drivePin (h : Replayed s t) (ic : IcId) (line : Line) (level : Bool) :
    Replayed s (drivePin ic line level t) := h.event (.pin ic line level) rfl rfl

theorem Replayed.driveRelay (h : Replayed s t) (level : Bool) : Replayed s (driveRelay level t) :=
  h.event (.relay level) rfl rfl

theorem Replayed.driveSpi (h : Replayed s t) (on : Bool) : Replayed s (driveSpi on t) := by
  cases on
  · exact h.event .spiOff rfl rfl
  · exact h.event .spiOn rfl rfl

theorem Replayed.delay (h : Replayed s t) (ms : U32) : Replayed s (emit (.delay ms) t) := h.event (.delay ms) rfl rfl

theorem Replayed.spiCfg (h : Replayed s t) (ic : IcId) : Replayed s (emit (.spiCfg ic) t) := h.event (.spiCfg ic) rfl rfl

theorem Replayed.spi (h : Replayed s t) (ic : IcId) (hi lo : U8) (ok : Bool) :
    Replayed s (emit (.spi ic hi lo ok) (afterDraw t)) := h.event (.spi ic hi lo ok) rfl rfl

theorem Replayed.setPhase (h : Replayed s t) (p : Phase) : Replayed s (t.setPhase p) := h.of_eq rfl rfl
theorem Replayed.setFailed (h : Replayed s t) (b : Bool) : Replayed s (t.setFailed b) := h.of_eq rfl rfl
theorem Replayed.setPending (h : Replayed s t) (ic : IcId) (c : IcCommandSet) : Replayed s (t.setPending ic c) :=
  h.of_eq rfl rfl
theorem Replayed.setCommitted (h : Replayed s t) (ic : IcId) (c : IcCommandSet) : Replayed s (t.setCommitted ic c) :=
  h.of_eq rfl rfl
theorem Replayed.setMode (h : Replayed s t) (m : Mode) : Replayed s (t.setMode m) := h.of_eq rfl rfl
theorem Replayed.setMirror (h : Replayed s t) (p : Preset) : Replayed s (t.setMirror p) := h.of_eq rfl rfl
theorem Replayed.setTable (h : Replayed s t) (x : List (Mode × Preset)) : Replayed s (t.setTable x) := h.of_eq rfl rfl
theorem Replayed.answer (h : Replayed s t) (a : Answer) : Replayed s (t.answer a) := h.of_eq rfl rfl

theorem Replayed.xferWord (h : Replayed s t) (ic : IcId) (w : U16) : Replayed s (xferWord ic w t).2 := by
  refine .drivePin (.delay (.drivePin (.drivePin (.spi (.drivePin h ic .cs true) ic _ _ _) ic .cs false) ic .strobe true) _)
    ic .strobe false

theorem Replayed.drvInit (h : Replayed s t) (ic : IcId) : Replayed s (drvInit ic t) :=
  .setCommitted (.setPending (.drivePin (.drivePin (.drivePin (.drivePin (.driveSpi (.spiCfg h ic) true) ic .cs false)
    ic .strobe false) ic .nReset true) ic .nSleep true) ic .zero) ic .zero

theorem Replayed.drvReset (h : Replayed s t) (ic : IcId) : Replayed s (drvReset ic t) :=
  .driveSpi (.drivePin (.delay (.drivePin (.driveSpi (.drivePin (.drivePin (.drivePin h ic .cs false) ic .strobe false)
    ic .nSleep false) false) ic .nReset false) _) ic .nReset true) true

theorem Replayed.drvSetSingleChannel (h : Replayed s t) (ic : IcId) (ch : ChannelId) (f : ChannelField) :
    Replayed s (drvSetSingleChannel ic ch f t).2 := by
  rw [drvSetSingleChannel_eq]; dsimp only
  split_ifs
  · exact .setCommitted (.xferWord (.setPending h ic _) ic _) ic _
  · exact .xferWord (.setPending h ic _) ic _

theorem Replayed.drvSetAllChannels (h : Replayed s t) (ic : IcId) (f : ByChannel ChannelField) :
    Replayed s (drvSetAllChannels ic f t).2 := by
  rw [drvSetAllChannels_eq]; dsimp only
  split_ifs
  · exact .setCommitted (.xferWord (.setCommitted (.xferWord (.setPending h ic _) ic _) ic _) ic _) ic _
  · exact .xferWord (.setCommitted (.xferWord (.setPending h ic _) ic _) ic _) ic _
  · exact .xferWord (.setPending h ic _) ic _

theorem Replayed.wakeBoth (h : Replayed s t) : Replayed s (wakeBoth t) :=
  .delay (.drivePin (.drivePin (.setPhase h .wake) .icA .nSleep true) .icB .nSleep true) _

theorem Replayed.hold (h : Replayed s t) (ms : U32) : Replayed s (hold ms t) := .delay (.setPhase h .hold) ms

theorem Replayed.both (h : Replayed s t) (F : FieldSets) : Replayed s (both F t).2 := by
  unfold Machine.both; dsimp only
  split_ifs
  · exact .drvSetAllChannels (.drvSetAllChannels h .icA F.icA) .icB F.icB
  · exact .drvSetAllChannels h .icA F.icA

theorem Replayed.unwind (h : Replayed s t) : Replayed s (unwind t) :=
  .setPhase (.setFailed (.drivePin (.drivePin (.setPhase (.drvReset (.drvReset (.setPhase h .reset) .icA) .icB) .sleep)
    .icA .nSleep false) .icB .nSleep false) false) .idle

theorem Replayed.finish (h : Replayed s t) (r : Result) : Replayed s (finish r t) := by
  refine .answer (.unwind ?_) _
  unfold markFailure
  split_ifs
  · exact h
  · exact .setFailed h true

theorem Replayed.panicPhase (h : Replayed s t) (F : FieldSets) : Replayed s (panicPhase F t) :=
  .drvSetAllChannels (.drvSetAllChannels h .icA F.icA) .icB F.icB

theorem Replayed.panicCycle (h : Replayed s t) (width : U32) (direction : Bool) :
    Replayed s (panicCycle width direction t) :=
  .panicPhase (.setPhase (.hold (.panicPhase (.setPhase h .pulse) _) width) .release) _

theorem Replayed.panicCycles (h : Replayed s t) (widths : List U32) : Replayed s (panicCycles widths t) := by
  induction widths generalizing t with
  | nil => exact h
  | cons w ws ih => exact ih (.panicCycle (.panicCycle h w true) w false)

theorem Replayed.initRun (h : Replayed s t) : Replayed s (initRun t) :=
  .setPhase (.setFailed (.setMirror (.setMode (.driveRelay (.drvInit (.drvInit (.setTable h _) .icA) .icB) _) .rest) _)
    false) .idle

end Sys2Proof.Laws
end

