-- ==== Sys2Proof/Laws/Step.lean ====
section
/-! SUPPORT. What one step can do, and what the two actuations leave alone whatever the transfers answer. -/

namespace Sys2Proof.Laws

open Machine Safety

variable (s : State)

/-- A step that answers a next state waited, ran the decoded instruction, refused a command, or sent a reserved word. -/
theorem step_next_cases {s t : State} (h : step s = .next t) :
    t = s ∨ (∃ i rest, exec i (s.setInbox rest) = .next t) ∨ (∃ rest, t = refuse (s.setInbox rest)) ∨
      ∃ ic w rest, t = xferAlone ic w (s.setInbox rest) := by
  unfold step at h
  split at h
  · cases h; exact .inl rfl
  · split at h
    · exact .inr (.inl ⟨_, _, h⟩)
    · unfold rejectFrame at h
      split at h <;> cases h
      · exact .inr (.inr (.inl ⟨_, rfl⟩))
      · exact .inr (.inr (.inr ⟨_, _, _, rfl⟩))

/-- Steps 4 to 7 of `set_mode` never touch these (43_motion_control R193). -/
theorem actuate_frame (m : Mode) (p : Preset) (Fon Foff : FieldSets) :
    (actuate m p Fon Foff s).2.table = s.table ∧ (actuate m p Fon Foff s).2.pulseWidthMs = s.pulseWidthMs ∧
      (actuate m p Fon Foff s).2.cfg = s.cfg ∧ (actuate m p Fon Foff s).2.inbox = s.inbox ∧
      (actuate m p Fon Foff s).2.results = s.results := by
  simp only [actuate, releaseAndCommit, hold_eq, commitMode_eq]
  split
  · split <;> simp
  · simp

/-- A failed `set_mode` commits nothing (60_exceptions R235). -/
theorem actuate_failed (m : Mode) (p : Preset) (Fon Foff : FieldSets) (h : (actuate m p Fon Foff s).1 ≠ .ok) :
    (actuate m p Fon Foff s).2.mode = s.mode ∧ (actuate m p Fon Foff s).2.mirror = s.mirror ∧
      (actuate m p Fon Foff s).2.relay = s.relay := by
  revert h
  simp only [actuate, releaseAndCommit, hold_eq]
  split
  · split
    · simp
    · simp
  · simp

/-- The two commits of `valve_override` never touch these, nor the mirror unless both go through
(43_motion_control R209). -/
theorem overridePulse_frame (v : ValveId) (d : Bool) (fon foff : ChannelField) :
    (overridePulse v d fon foff s).2.table = s.table ∧
      (overridePulse v d fon foff s).2.pulseWidthMs = s.pulseWidthMs ∧
      (overridePulse v d fon foff s).2.cfg = s.cfg ∧ (overridePulse v d fon foff s).2.inbox = s.inbox ∧
      (overridePulse v d fon foff s).2.results = s.results ∧ (overridePulse v d fon foff s).2.mode = s.mode ∧
      (overridePulse v d fon foff s).2.relay = s.relay ∧
      ((overridePulse v d fon foff s).1 ≠ .ok → (overridePulse v d fon foff s).2.mirror = s.mirror) := by
  simp only [overridePulse, overrideRelease, hold_eq]
  split
  · split <;> simp [*]
  · simp

end Sys2Proof.Laws
end

