-- ==== Sys2Proof/Tests/Slice0.lean ====
section
/-! SUPPORT. The tests. Expected values come from spec/95_test_vectors.md (named V-…, E…, P… in the comments) under its
illustrative configuration CFG-EX, or are worked out by hand from the rule named. -/

namespace Sys2Proof.Tests

open Machine Safety

/-! ## CFG-EX (95_test_vectors, section 0) -/

/-- A target with current 5 and decay 1. -/
def target (direction : U8) : ValveTarget := ⟨direction, 5, 1⟩

/-- Eight targets by their directions. -/
def directions (a b c d e f g h : U8) : ByValve ValveTarget :=
  ⟨target a, target b, target c, target d, target e, target f, target g, target h⟩

/-- The four modes of CFG-EX. -/
def modesEx : List ModeEntry :=
  [⟨.rest, 0, false, ⟨directions 0 0 0 0 0 0 0 0, false⟩⟩,
   ⟨.zeroPumpOff, 2, true, ⟨directions 1 0 1 0 0 1 1 0, false⟩⟩,
   ⟨.zeroPumpOn, 3, true, ⟨directions 1 0 1 0 0 1 1 0, true⟩⟩,
   ⟨.deploy, 4, false, ⟨directions 1 1 0 0 1 0 0 1, true⟩⟩]

/-- The valve map of CFG-EX. -/
def valveMapEx : ByValve (IcId × ChannelId) :=
  ⟨(.icA, .chA), (.icA, .chB), (.icA, .chC), (.icA, .chD), (.icB, .chA), (.icB, .chB), (.icB, .chC), (.icB, .chD)⟩

/-- CFG-EX. `SPI_MODE` and `PIN_ASSIGN`, which it leaves open, are any that are legal; `RELAY_INIT` is left at its
default. -/
def cfgEx : Config where
  modes := modesEx
  valveMap := valveMapEx
  strobeDelayMs := 1
  resetDelayMs := 2
  wakeupDelayMs := 3
  pulseWidthMinMs := 10
  pulseWidthDefaultMs := 50
  panicWidths := [10, 14, 18, 22, 26, 30, 34, 38, 42, 46, 50, 54, 58, 62, 66, 70, 74, 78, 82, 86, 90, 94, 98, 100]
  panicCurrent := 7
  panicDecay := false
  spiMode := ⟨false, false⟩
  pinAssign := ⟨⟨⟨0, 1, 2, 3⟩, ⟨4, 5, 6, 7⟩⟩, 8, 9⟩

/-- CFG-BAD: valve 3 of `Deploy` has current 9. -/
def cfgBad : Config :=
  { cfgEx with
    modes := modesEx.map fun e =>
      if e.mode = .deploy then { e with preset := { e.preset with valve := valveSet e.preset.valve .v3 ⟨0, 9, 1⟩ } } else e }

theorem test_cfgEx_valid : cfgEx.Valid where
  modesNodup := by decide
  codesNodup := by decide
  restMember := by decide
  partnerPaired := by decide
  zeroPumpOn := by decide
  zeroPumpOff := by decide
  valveMapBijective := by decide
  defaultNotBelowMin := by decide
  panicCount := by decide
  panicRange := by simp [cfgEx]
  pinsNodup := by decide
theorem test_cfgEx_wfPreset : cfgEx.WfPreset where
  inRange := by decide
  uniform := Exists.intro 5#8 (by decide +kernel)
theorem test_cfgEx_pumpAgrees : cfgEx.PumpAgrees := by unfold Config.PumpAgrees; decide
theorem test_relayInit_default : cfgEx.relayInit = false := by decide -- R9, D16
/-- CFG-EX with the codes of the Zero pair exchanged. -/
def cfgSwapped : Config :=
  { cfgEx with
    modes := modesEx.map fun e =>
      if e.mode = .zeroPumpOn ∨ e.mode = .zeroPumpOff then { e with code := e.code ^^^ 1#32 } else e }

theorem test_swapped_pair_not_valid : ¬ cfgSwapped.Valid := fun h => by -- R176: MODE_CODE(ZeroPumpOn)[0] = 1
  have := h.zeroPumpOn
  revert this; decide
theorem test_cfgBad_breaks_wfPreset : ¬ cfgBad.WfPreset := fun h => by
  have := h.inRange
  revert this; decide

/-! ## Helpers -/

/-- The next state, or power-on where there is none. -/
def out (o : Host.Outcome State Fault Refusal) : State :=
  match o with
  | .next s => s
  | _ => State.powerOn cfgEx

/-- Power-on under CFG-EX. -/
def start : State := State.powerOn cfgEx

/-- After `init()`: `Idle(Rest)`, both ICs awake. -/
def idle : State := out (exec .init start)

/-- One instruction with the transfers answered as listed, its own events and answers alone kept. -/
def run (i : Instr) (answers : List Bool) (s : State) : State :=
  out (exec i { s with spiAnswers := answers, trace := [], results := [] })

/-- `n` successes. -/
def oks (n : Nat) : List Bool := List.replicate n true

/-- `Idle(ZeroPumpOn)`, after a `set_mode` whose eight transfers succeed. -/
def zeroOn : State := run (.setMode 3) (oks 8) idle

/-- One command frame taken from the port, answered. -/
def answer (w : BitVec 40) (s : State) : List Answer := (out (step { s with inbox := [.cmd40 w], results := [] })).results

/-! ## Well-formedness -/

theorem test_ill_formed_index : (Instr.getValveDirection 8).wellFormed = false := by decide
theorem test_well_formed_index : (Instr.getValveDirection 7).wellFormed = true := by decide

/-! ## Decoding, a written-out word for each constructor (30_encoding R91 to R99) -/

theorem test_decode_init : decode (.cmd40 0x00DEADBEEF) = .ok .init := by decide -- V-CMD8
theorem test_decode_setMode : decode (.cmd40 0x0100000003) = .ok (.setMode 3) := by decide -- P1
theorem test_decode_togglePump : decode (.cmd40 0x0200000000) = .ok .togglePump := by decide
theorem test_decode_setCurrent : decode (.cmd40 0x0300000100) = .ok (.setCurrent 256) := by decide -- V-CMD14
theorem test_decode_getCurrent : decode (.cmd40 0x0400000000) = .ok .getCurrent := by decide
theorem test_decode_setPulseWidthMs : decode (.cmd40 0x05FFFFFFFF) = .ok (.setPulseWidthMs 0xFFFFFFFF) := by decide
theorem test_decode_getPulseWidthMs : decode (.cmd40 0x0600000000) = .ok .getPulseWidthMs := by decide
theorem test_decode_getMode : decode (.cmd40 0x0700000000) = .ok .getMode := by decide
theorem test_decode_getValveDirection : decode (.cmd40 0x0800000005) = .ok (.getValveDirection 5) := by decide
theorem test_decode_panicRecover : decode (.cmd40 0x0900000000) = .ok .panicRecover := by decide
theorem test_decode_sleepDrivers : decode (.cmd40 0x0A00000000) = .ok .sleepDrivers := by decide
theorem test_decode_valveOverride : decode (.cmd40 0x0B00000105) = .ok (.valveOverride .v5 true) := by decide -- P5
theorem test_decode_mustBeZero : decode (.cmd40 0x0B00000010) = .error .mustBeZero := by decide -- V-CMD32
theorem test_decode_wordAb :
    decode (.word16 .icA 0b0000110101110111) = .ok (.wordAb .icA ⟨true, 5, false, true⟩ ⟨true, 5, true, true⟩) := by
  decide -- V-AS3
theorem test_decode_wordCd :
    decode (.word16 .icB 0b0001110100110110) = .ok (.wordCd .icB ⟨true, 5, false, false⟩ ⟨true, 5, true, false⟩) := by
  decide -- V-AS6
theorem test_decode_reserved_word : decode (.word16 .icA 0x2000) = .error .reservedWord := by decide -- R96
theorem test_decode_encodeChA : decode (.enc16 .chA 0x0023) = .ok (.encodeChA ⟨true, 0, true, true⟩) := by decide -- V-EN10
theorem test_decode_encodeChB : decode (.enc16 .chB 0x0700) = .ok (.encodeChB ⟨false, 7, false, false⟩) := by decide
theorem test_decode_encodeChC : decode (.enc16 .chC 0x1035) = .ok (.encodeChC ⟨true, 5, false, true⟩) := by decide
theorem test_decode_encodeChD : decode (.enc16 .chD 0x1F80) = .ok (.encodeChD ⟨true, 7, true, false⟩) := by decide
theorem test_decode_sub6 : decode (.sub6 0b010010) = .ok (.sub6 ⟨false, 4, true, false⟩) := by decide -- R91
theorem test_decode_rsp40 : decode (.rsp40 0x0000000032) = .ok (.rsp40 .ok 50) := by decide -- V-CMD20
theorem test_decode_unnamed_result : decode (.rsp40 0x0400000000) = .error .unnamedResult := by decide -- R231

/-! ## The host's two entry points -/

theorem test_table_word : decodeTableWord 40 0x0100000003 = some (.setMode 3) := by decide
theorem test_fetch_init : (out (step (State.reset.withFetchWord 40 0))).phase = .idle := by decide
theorem test_fetch_word :
    (out (step (State.reset.withFetchWord 16 0x1FC0))).trace.head? = some (.pin .icA .cs true) := by decide
theorem test_fetch_sub6 :
    (out (step (State.reset.withFetchWord 8 0x37))).results = [.field ⟨true, 5, true, true⟩] := by decide

/-! ## The codec -/

theorem test_mkField_current_8 : mkField 0 8 0 0 ⟨true, 1, true, false⟩ = (.invalidParameter, ⟨true, 1, true, false⟩) := by
  decide -- V-MK4
theorem test_mkField_max : mkField 1 7 1 1 .zero = (.ok, ⟨true, 7, true, true⟩) := by decide -- V-MK2
theorem test_decodeField : decodeField .chB 0x0D77 = ⟨true, 5, false, true⟩ := by decide -- V-DE4
theorem test_decodeField_reserved : decodeField .chD 0xE03F = ⟨false, 0, false, false⟩ := by decide -- V-DE9
theorem test_merge : merge .chB 0x0D77 ⟨true, 5, true, false⟩ = 0x0DB7 := by decide -- V-ME1
theorem test_merge_bit12 : merge .chC 0x0000 ⟨true, 7, true, true⟩ = 0x103F := by decide -- V-ME5

/-! ## One step, at most two per instruction -/

-- V-CMD7, P1: 13 events, the ICs awake.
theorem test_init_trace : (run .init [] start).trace = initEvents cfgEx ∧ (run .init [] start).trace.length = 13 := by decide
theorem test_init_pins : idle.pin.icB = ⟨false, false, true, true⟩ ∧ idle.phase = .idle ∧ idle.pulseWidthMs = 50 := by
  decide
-- P1: 71 events, mode, relay, words, the cleared device.
theorem test_setMode_ok :
    zeroOn.trace.length = 71 ∧ zeroOn.mode = .zeroPumpOn ∧ zeroOn.relay = true ∧ zeroOn.committed.icA.wordAB = 0x0D36 ∧
      zeroOn.committed.icB.wordAB = 0x0DB4 ∧ zeroOn.committed.icB.wordCD = 0x1D36 ∧ zeroOn.dev = devCleared := by
  decide +kernel
-- P2: the eighth transfer fails: PartialCommit, 70 events, IC_B's CD word still the pulse word.
theorem test_setMode_partial :
    let t := run (.setMode 3) (oks 7 ++ [false]) idle
    t.results = [.response .partialCommit 0] ∧ t.trace.length = 70 ∧ t.mode = .rest ∧ t.relay = false ∧
      t.committed.icB.wordCD = 0x1D77 ∧ t.pending.icB.wordCD = 0x1D36 := by
  decide +kernel
-- V-CMD33: validation fails at valve 3, 21 events.
theorem test_setMode_invalid :
    let t := run (.setMode 4) [] (out (exec .init (State.powerOn cfgBad)))
    t.results = [.response .invalidParameter 0] ∧ t.trace.length = 21 ∧ t.mode = .rest := by
  decide +kernel
-- V-CMD29 and V-CMD30.
theorem test_togglePump_unpaired : (run .togglePump [] idle).mode = .rest ∧ (run .togglePump [] idle).relay = true := by
  decide
theorem test_togglePump_paired :
    let s : State := { idle with mode := .zeroPumpOn, relay := true }
    (run .togglePump [] s).mode = .zeroPumpOff ∧ (run .togglePump [] s).trace = [.relay false] := by
  decide
-- V-PT8 and V-CMD14.
theorem test_setCurrent :
    tableGetCurrent (run (.setCurrent 3) [] idle) = 3 ∧ (run (.setCurrent 3) [] idle).mirror.valve.v0.current = 5 := by
  decide
theorem test_setCurrent_256 : answer 0x0300000100 idle = [.response .invalidParameter 0] := by decide
-- V-CMD15.
theorem test_getCurrent : answer 0x0400000000 idle = [.response .ok 5] := by decide
-- V-CMD17 and V-CMD16.
theorem test_setPulseWidth_minimum : (run (.setPulseWidthMs 10) [] idle).pulseWidthMs = 10 := by decide
theorem test_setPulseWidth_below :
    (run (.setPulseWidthMs 9) [] idle).pulseWidthMs = 50 ∧ answer 0x0500000009 idle = [.response .invalidParameter 0] := by
  decide
-- V-CMD20.
theorem test_getPulseWidth : answer 0x0600000000 idle = [.response .ok 50] := by decide
-- V-CMD22.
theorem test_getMode : answer 0x0700000000 { idle with mode := .zeroPumpOn } = [.response .ok 3] := by decide
-- V-CMD25 and V-CMD27.
theorem test_getValveDirection :
    answer 0x0800000005 { idle with mirror := presetDefault cfgEx .zeroPumpOn } = [.response .ok 1] := by decide
theorem test_getValveDirection_8 : answer 0x0800000008 idle = [.response .invalidParameter 0] := by decide
-- V-CMD6; P4 for the words of one phase (V-AS7).
theorem test_panicRecover_uninit : (run .panicRecover [] start).results = [.response .invalidParameter 0] := by decide
theorem test_panicCycle :
    let t := panicCycle 10 true { idle with spiAnswers := oks 8, trace := [] }
    t.dev.icB = ⟨.known 0x179E, .known 0x79E, .known 0x79E⟩ ∧ t.trace.filter isSpi =
      [.spi .icA 0x07 0xDF true, .spi .icA 0x17 0xDF true, .spi .icB 0x07 0xDF true, .spi .icB 0x17 0xDF true,
       .spi .icA 0x07 0x9E true, .spi .icA 0x17 0x9E true, .spi .icB 0x07 0x9E true, .spi .icB 0x17 0x9E true] := by
  decide +kernel
-- V-CMD28.
theorem test_sleepDrivers :
    (run .sleepDrivers [] idle).trace = [.pin .icA .nSleep false, .pin .icB .nSleep false] := by decide
-- P5, V-ME8 and V-ME9: valve 5 after ZeroPumpOn.
theorem test_valveOverride :
    (run (.valveOverride .v5 false) (oks 2) zeroOn).trace.filter isSpi =
      [.spi .icB 0x0D 0x74 true, .spi .icB 0x0D 0x34 true] := by
  decide +kernel
theorem test_valveOverride_fails :
    let t := run (.valveOverride .v5 false) [false] zeroOn
    t.results = [.response .transferFailed 0] ∧ t.committed.icB.wordAB = 0x0DB4 ∧ t.pending.icB.wordAB = 0x0D74 ∧
      t.mirror.valve.v5.direction = 1 := by
  decide +kernel
-- V-DR1 and V-DR2.
theorem test_wordAb :
    (run (.wordAb .icA ⟨true, 5, false, true⟩ ⟨true, 5, true, true⟩) [true] idle).dev.icA =
      ⟨.known 0x0D77, .known 0xD77, .unknown⟩ := by decide
theorem test_wordCd_fails :
    (run (.wordCd .icB ⟨true, 5, false, false⟩ ⟨true, 5, true, false⟩) [false] idle).trace =
        [.pin .icB .cs true, .spi .icB 0x1D 0x36 false, .pin .icB .cs false, .pin .icB .strobe true, .delay 1,
         .pin .icB .strobe false] ∧
      (run (.wordCd .icB ⟨true, 5, false, false⟩ ⟨true, 5, true, false⟩) [false] idle).dev.icB =
        ⟨.unknown, .unknown, .unknown⟩ := by decide
theorem test_wordCd :
    (run (.wordCd .icB ⟨true, 5, false, false⟩ ⟨true, 5, true, false⟩) [true] idle).dev.icB.regCD = .known 0xD36 := by
  decide
-- E1 to E4.
theorem test_encodeChA : (run (.encodeChA ⟨true, 7, true, true⟩) [] start).results = [.word 0x003F] := by decide
theorem test_encodeChB : (run (.encodeChB ⟨true, 7, true, true⟩) [] start).results = [.word 0x0FC0] := by decide
theorem test_encodeChC : (run (.encodeChC ⟨true, 7, true, true⟩) [] start).results = [.word 0x103F] := by decide
theorem test_encodeChD : (run (.encodeChD ⟨true, 7, true, true⟩) [] start).results = [.word 0x1FC0] := by decide
-- R91 and V-CMD20.
theorem test_sub6 : (run (.sub6 ⟨true, 5, true, false⟩) [] start).results = [.field ⟨true, 5, true, false⟩] := by decide
theorem test_rsp40 :
    (run (.rsp40 .ok 50) [] start).results = [.response .ok 50] ∧ responseFrame .ok 50 = 0x0000000032 := by decide
-- V-CMD9, a reserved opcode; R75 and R96, a reserved word at an IC that listens.
theorem test_reserved_opcode : answer 0x0C00000000 idle = [.response .invalidParameter 0] := by decide
theorem test_reserved_word :
    (out (step { idle with inbox := [.word16 .icA 0x2000], spiAnswers := [true] })).dev.icA =
      ⟨.known 0x2000, .unknown, .unknown⟩ := by decide

/-! ## Witnesses: for each statement with hypotheses, a state and operands that meet them together, clause by clause -/

theorem witness_DecodeOfEncode : (Instr.getValveDirection 7).wellFormed = true := by decide

theorem witness_EveryWellFormedWord :
    (0x0FFF#16 &&& 0xF000#16 = 0x0000#16) ∧ (0x1FFF#16 &&& 0xF000#16 = 0x1000#16) ∧ (0x2000#16 &&& 0xE000#16 ≠ 0#16) := by
  decide

/-- A block with one frame waiting. -/
def waiting (f : Frame) : State := { idle with inbox := [f] }

theorem witness_FramesOutsideTheDomain_opcode :
    (waiting (.cmd40 0x0C00000000)).inbox = .cmd40 0x0C00000000 :: [] ∧ (frameHigh 0x0C00000000).toNat ≥ 0x0C := by decide
theorem witness_FramesOutsideTheDomain_index :
    (waiting (.cmd40 0x0800000008)).inbox = .cmd40 0x0800000008 :: [] ∧ (frameHigh 0x0800000008).toNat = 0x08 ∧
      (frameLow 0x0800000008).toNat > 7 := by decide
theorem witness_FramesOutsideTheDomain_zeroBits :
    (waiting (.cmd40 0x0B00000008)).inbox = .cmd40 0x0B00000008 :: [] ∧ (frameHigh 0x0B00000008).toNat = 0x0B ∧
      frameLow 0x0B00000008 &&& 0xFFFFFEF8#32 ≠ 0#32 := by decide
theorem witness_FramesOutsideTheDomain_mode :
    (waiting (.cmd40 0x0100000001)).inbox = .cmd40 0x0100000001 :: [] ∧ (frameHigh 0x0100000001).toNat = 0x01 ∧
      ∀ e ∈ (waiting (.cmd40 0x0100000001)).cfg.modes, e.code ≠ frameLow 0x0100000001 := by decide
theorem witness_FramesOutsideTheDomain_ignored :
    frameHigh 0x0000000000 = frameHigh 0x00DEADBEEF ∧
      (frameHigh 0x0000000000).toNat ∈ [0x00, 0x02, 0x04, 0x06, 0x07, 0x09, 0x0A] := by decide

theorem witness_StepRunsTheDecodedInstruction :
    (waiting (.cmd40 0x0700000000)).inbox = .cmd40 0x0700000000 :: [] ∧ decode (.cmd40 0x0700000000) = .ok .getMode := by
  decide

theorem witness_StepWithoutInstruction_waits : idle.inbox = [] := by decide
theorem witness_StepWithoutInstruction_reserved :
    let s := waiting (.word16 .icB 0x2000)
    s.inbox = .word16 .icB 0x2000 :: [] ∧ 0x2000#16 &&& 0xE000#16 ≠ 0#16 ∧ (icGet s.pin .icB).nSleep = true ∧
      (icGet s.pin .icB).nReset = true ∧ (icGet s.pin .icB).strobe = false := by decide
theorem witness_StepWithoutInstruction_enc16 :
    (waiting (.enc16 .chA 0x0040)).inbox = .enc16 .chA 0x0040 :: [] ∧
      decode (.enc16 .chA 0x0040) = .error .notEncodingOfChannel := by decide
theorem witness_StepWithoutInstruction_rsp40 :
    (waiting (.rsp40 0x0400000000)).inbox = .rsp40 0x0400000000 :: [] ∧ (frameHigh 0x0400000000).toNat > 3 := by decide

theorem witness_FieldConstructor :
    ((1#8).toNat ≤ 1 ∧ (7#8).toNat ≤ 7 ∧ (1#8).toNat ≤ 1 ∧ (1#8).toNat ≤ 1) ∧
      ¬ ((1#8).toNat ≤ 1 ∧ (8#8).toNat ≤ 7 ∧ (1#8).toNat ≤ 1 ∧ (1#8).toNat ≤ 1) := by decide

theorem witness_CodecRoundTrip :
    encodeField .chD ⟨true, 7, true, true⟩ = encodeField .chD (decodeField .chD 0x1FC0) := by decide

theorem witness_DeviceReacts_frame :
    let l : Lines := ⟨true, false, true, true⟩
    l.cs = true ∧ l.nSleep = true ∧ l.nReset = true := by decide
theorem witness_DeviceReacts_lost :
    let l : Lines := ⟨false, true, true, false⟩
    (true = false ∨ l.cs = false ∨ l.nSleep = false ∨ l.nReset = false ∨ true = false) ∧
      (l.strobe = true ∨ l.nSleep = false ∨ l.nReset = false) := by decide
theorem witness_DeviceReacts_latch :
    let l : Lines := ⟨false, false, true, true⟩
    (l.strobe = false ∧ l.nSleep = true ∧ l.nReset = true) ∧
      ((0x0FFF#16).extractLsb' 13 3 = 0#3 ∧ (0x0FFF#16).getLsbD 12 = false) ∧
      ((0x1000#16).extractLsb' 13 3 = 0#3 ∧ (0x1000#16).getLsbD 12 = true) ∧ (0x2000#16).extractLsb' 13 3 ≠ 0#3 := by
  decide
theorem witness_DeviceReacts_other : eventIc (.pin .icA .strobe true) ≠ some .icB ∧ eventIc .spiOn ≠ some .icA := by decide

theorem witness_BridgeOutputs_off : (icGet zeroOn.pin .icA).nSleep = false ∧ (icGet start.pin .icB).nReset = false := by
  decide +kernel
theorem witness_BridgeOutputs_unknown :
    (icGet idle.pin .icA).nSleep = true ∧ (icGet idle.pin .icA).nReset = true ∧ (icGet idle.dev .icA).regAB = .unknown ∧
      (icGet idle.dev .icA).regCD = .unknown := by decide
theorem witness_BridgeOutputs_known :
    let s : State := { idle with dev := ⟨⟨.unknown, .known 0xD77, .known 0xD36⟩, idle.dev.icB⟩ }
    (icGet s.pin .icA).nSleep = true ∧ (icGet s.pin .icA).nReset = true ∧
      (icGet s.dev .icA).regAB =
        .known (ChannelField.sub6 ⟨true, 5, false, true⟩ ++ ChannelField.sub6 ⟨true, 5, true, true⟩) ∧
      (icGet s.dev .icA).regCD =
        .known (ChannelField.sub6 ⟨true, 5, false, false⟩ ++ ChannelField.sub6 ⟨true, 5, true, false⟩) := by decide

/-- Idle, with these answers to come. -/
def answered (answers : List Bool) : State := { idle with spiAnswers := answers }

theorem witness_Transfer_off : (icGet start.pin .icA).nSleep = false := by decide
theorem witness_Transfer_noEdge :
    let s : State := { idle with pin := ⟨⟨false, true, true, true⟩, idle.pin.icB⟩ }
    (icGet s.pin .icA).nSleep = true ∧ (icGet s.pin .icA).nReset = true ∧ (icGet s.pin .icA).strobe = true := by decide
theorem witness_Transfer_listens :
    (icGet (answered [true]).pin .icB).nSleep = true ∧ (icGet (answered [true]).pin .icB).nReset = true ∧
      (icGet (answered [true]).pin .icB).strobe = false ∧ (answered [true]).spiOn = true ∧ drawnOk (answered [true]) = true ∧
      (0x1FFF#16).extractLsb' 13 3 = 0#3 := by decide
theorem witness_Transfer_lost :
    (icGet (answered [false]).pin .icB).strobe = false ∧ drawnOk (answered [false]) = false ∧
      (0x2000#16).extractLsb' 13 3 ≠ 0#3 := by decide

theorem witness_AllChannelCommit :
    nextAnswers (answered [false]) 1 = [false] ∧ nextAnswers (answered [true, false]) 2 = [true, false] ∧
      nextAnswers (answered [true, true]) 2 = [true, true] := by decide

theorem witness_CommittedMatchesTheDevice :
    let s := answered [true, true]
    (icGet s.pin .icA).nSleep = true ∧ (icGet s.pin .icA).nReset = true ∧ (icGet s.pin .icA).strobe = false ∧
      s.spiOn = true ∧ (drvSetAllChannels .icA ⟨.zero, .zero, .zero, .zero⟩ s).1 = .ok ∧
      (drvSetSingleChannel .icA .chD .zero s).1 = .ok := by decide +kernel
theorem witness_CommittedMatchesTheDevice_words : wordsMatch (icGet (answered [true]).committed .icA) := by
  unfold wordsMatch; decide

theorem witness_Route :
    cfgEx.valveMap.toList.Nodup ∧ route cfgEx (presetDefault cfgEx .zeroPumpOn) true ≠ none ∧
      route cfgBad (presetDefault cfgBad .deploy) true = none := by decide +kernel

theorem witness_PumpOfPairedModes : modePaired cfgEx .zeroPumpOn = true ∧ modePaired cfgEx .deploy = false := by decide

theorem witness_Phase :
    nextAnswers (answered (oks 4)) 4 = List.replicate 4 true ∧
      nextAnswers (answered [false]) (0 + 1) = List.replicate 0 true ++ [false] ∧
      nextAnswers (answered (oks 3 ++ [false])) (3 + 1) = List.replicate 3 true ++ [false] := by decide

theorem witness_SetMode_invalid :
    let s := out (exec .init (State.powerOn cfgBad))
    s.phase = .idle ∧ (entryOfCode s.cfg 4).isSome = true ∧ route s.cfg (tableGet s.table .deploy) true = none := by
  decide +kernel
theorem witness_SetMode_ok :
    (answered (oks 8)).phase = .idle ∧ ((entryOfCode (answered (oks 8)).cfg 3).map (·.mode)) = some .zeroPumpOn ∧
      (route cfgEx (tableGet (answered (oks 8)).table .zeroPumpOn) true).isSome = true ∧
      (route cfgEx (tableGet (answered (oks 8)).table .zeroPumpOn) false).isSome = true ∧
      nextAnswers (answered (oks 8)) 8 = List.replicate 8 true := by decide +kernel
theorem witness_SetMode_fails :
    nextAnswers (answered [false]) (0 + 1) = List.replicate 0 true ++ [false] ∧
      nextAnswers (answered (oks 7 ++ [false])) (7 + 1) = List.replicate 7 true ++ [false] := by decide

theorem witness_SetModeTraceCounts :
    (answered (oks 8)).phase = .idle ∧ ((entryOfCode (answered (oks 8)).cfg 3).map (·.mode)) = some .zeroPumpOn ∧
      (tableGet (answered (oks 8)).table .zeroPumpOn).inRange = true ∧
      nextAnswers (answered (oks 8)) 8 = List.replicate 8 true ∧
      nextAnswers (answered [false]) 1 = List.replicate (1 - 1) true ++ [false] ∧
      nextAnswers (answered (oks 7 ++ [false])) 8 = List.replicate (8 - 1) true ++ [false] := by decide +kernel

theorem witness_SetModeTraceCounts_invalid :
    let s := out (exec .init (State.powerOn cfgBad))
    s.phase = .idle ∧ ((entryOfCode s.cfg 4).map (·.mode)) = some .deploy ∧
      exec (.setMode 4) s = .next (out (exec (.setMode 4) s)) ∧ (tableGet s.table .deploy).inRange = false :=
  ⟨by decide, by decide, rfl, by decide⟩

theorem witness_TogglePump : idle.phase = .idle ∧ idle.cfg.Valid := ⟨by decide, test_cfgEx_valid⟩
theorem witness_TogglePump_paired :
    let s : State := { idle with mode := .zeroPumpOn, relay := true }
    modePaired s.cfg s.mode = true ∧ (modeCode s.cfg s.mode).getLsbD 0 = true ∧ modePaired idle.cfg idle.mode = false := by
  decide
theorem witness_TogglePump_agrees :
    let s : State := { idle with mode := .zeroPumpOff, relay := true }
    modePaired s.cfg s.mode = true ∧ (modeCode s.cfg s.mode).getLsbD 0 = !s.relay := by
  decide
theorem witness_TogglePumpTwice :
    let s : State := { idle with mode := .zeroPumpOn, relay := true, mirror := presetDefault cfgEx .zeroPumpOn }
    s.phase = .idle ∧ s.cfg.Valid ∧ s.mirror.pump = s.relay ∧ pumpInBitZero s :=
  ⟨by decide, test_cfgEx_valid, by decide, fun _ _ => by decide⟩

theorem witness_SetCurrent :
    idle.phase = .idle ∧ (7#32).toNat < 8 ∧ 8 ≤ (8#32).toNat ∧ idle.table[3]?.isSome = true := by decide
theorem witness_SetPulseWidth :
    idle.phase = .idle ∧ idle.cfg.pulseWidthMinMs.toNat ≤ (10#32).toNat ∧ (9#32).toNat < idle.cfg.pulseWidthMinMs.toNat := by
  decide
theorem witness_Getters : idle.phase = .idle ∧ (8#32).toNat > 7 := by decide
theorem witness_SleepDrivers : idle.phase = .idle := by decide

theorem witness_PanicRecover : (answered (oks 383 ++ [false])).phase = .idle := by decide
theorem witness_PanicRecoverCounts :
    let s := answered (oks 384)
    s.phase = .idle ∧ s.cfg.Valid ∧ nextAnswers s 384 = List.replicate 384 true :=
  ⟨by decide, test_cfgEx_valid, by decide +kernel⟩

theorem witness_ValveOverride_invalid :
    let s : State := { idle with mirror := ⟨valveSet idle.mirror.valve .v3 ⟨0, 8, 1⟩, false⟩ }
    s.phase = .idle ∧ ((valveGet s.mirror.valve .v3).current.toNat > 7 ∨ (valveGet s.mirror.valve .v3).decay.toNat > 1) := by
  decide
theorem witness_ValveOverride :
    idle.phase = .idle ∧ (valveGet idle.mirror.valve .v7).current.toNat ≤ 7 ∧
      (valveGet idle.mirror.valve .v7).decay.toNat ≤ 1 ∧ nextAnswers (answered [false]) 1 = [false] ∧
      nextAnswers (answered [true, false]) 2 = [true, false] ∧ nextAnswers (answered [true, true]) 2 = [true, true] := by
  decide

theorem witness_CommandsRefused :
    isCommand (.valveOverride .v0 true) = true ∧ Instr.valveOverride .v0 true ≠ .init ∧ start.phase ≠ .idle ∧
      { idle with phase := .hold }.phase ≠ .idle := by decide

theorem witness_OnlyTheNamed :
    exec .togglePump idle = .next (out (exec .togglePump idle)) ∧ (out (exec .togglePump idle)).relay ≠ idle.relay ∧
      (out (exec .togglePump idle)).mirror ≠ idle.mirror := ⟨rfl, by decide, by decide⟩
theorem witness_OnlyTheNamed_levels :
    (run .sleepDrivers [] idle).pin ≠ idle.pin ∧ (run .init [] { idle with failed := true }).failed ≠ true := by decide
theorem witness_OnlyTheNamed_rest :
    (run (.setMode 3) (oks 8) idle).mode ≠ idle.mode ∧ (run (.setCurrent 3) [] idle).table ≠ idle.table ∧
      (run (.setPulseWidthMs 10) [] idle).pulseWidthMs ≠ idle.pulseWidthMs ∧ (run .init [] start).phase ≠ start.phase ∧
      (run (.setMode 3) (oks 8) idle).committed ≠ idle.committed ∧ (run (.setMode 3) (oks 8) idle).dev ≠ idle.dev := by
  decide +kernel

theorem witness_Failure :
    let s := answered [false]
    let t := out (exec (.setMode 3) s)
    s.phase = .idle ∧ s.failed = false ∧ t.results = s.results ++ [.response .transferFailed 0] ∧
      Result.transferFailed ≠ .ok := by decide +kernel

theorem witness_SetModeDoesNotDepend :
    let s := answered (oks 8)
    let s' : State := { s with mode := .deploy, relay := true, pin := pinsAsleep, dev := devCleared }
    s.phase = .idle ∧ s'.phase = .idle ∧ s'.cfg = s.cfg ∧ s'.table = s.table ∧ s'.pulseWidthMs = s.pulseWidthMs ∧
      s'.spiAnswers = s.spiAnswers ∧ s'.draws = s.draws := ⟨by decide, by decide, rfl, rfl, rfl, rfl, rfl⟩

theorem witness_RestingBlock : Inv idle :=
  ⟨.inl (by decide), by decide, ⟨by unfold wordsMatch; decide, by unfold wordsMatch; decide⟩,
    ⟨by unfold wordsMatch; decide, by unfold wordsMatch; decide⟩, by decide,
    fun _ => ⟨⟨by decide, by decide, by decide⟩, ⟨by decide, by decide, by decide⟩, by decide⟩, fun _ => by decide,
    fun _ _ => by decide⟩
theorem witness_RestingBlock_step : step { idle with inbox := [.cmd40 0x0200000000] } =
    .next (out (step { idle with inbox := [.cmd40 0x0200000000] })) := rfl

theorem witness_Table : TableInv idle :=
  ⟨fun _ => by unfold tableShape; decide +kernel, fun _ _ => ⟨5, by decide +kernel⟩,
    fun _ _ => by unfold tableInRange; decide +kernel, .inl (by decide)⟩

theorem witness_PumpBit :
    idle.cfg.Valid ∧ modePaired idle.cfg .rest = false ∧ (idle.phase = .idle ∨ idle.phase = .uninit) ∧ pumpInBitZero idle :=
  ⟨test_cfgEx_valid, by decide, .inl (by decide), fun _ h => absurd h (by decide)⟩

theorem witness_BusInOrder : isCommand (.setMode 3) = true ∧ Inv idle ∧ exec (.setMode 3) idle = .next (out (exec (.setMode 3) idle)) :=
  ⟨rfl, witness_RestingBlock, rfl⟩

theorem witness_BridgesOff :
    idle.phase = .idle ∧ (entryOfCode idle.cfg 3).isSome = true ∧
      exec (.valveOverride .v5 true) idle = .next (out (exec (.valveOverride .v5 true) idle)) := ⟨by decide, by decide, rfl⟩

theorem witness_PowerOn : isCommand .panicRecover = true ∧ Instr.panicRecover ≠ .init := by decide

theorem witness_ZeroPair :
    cfgEx.Valid ∧ Mode.zeroPumpOn ∈ cfgEx.modes.map (·.mode) ∧ Mode.zeroPumpOff ∈ cfgEx.modes.map (·.mode) :=
  ⟨test_cfgEx_valid, by decide, by decide⟩
theorem witness_ZeroPair_toggles :
    let s : State := { idle with mode := .zeroPumpOn, relay := true }
    let s' : State := { idle with mode := .zeroPumpOff, relay := false }
    s.cfg = cfgEx ∧ s.phase = .idle ∧ s.mode = .zeroPumpOn ∧ s.relay = true ∧
      s'.cfg = cfgEx ∧ s'.phase = .idle ∧ s'.mode = .zeroPumpOff ∧ s'.relay = false := by
  exact ⟨rfl, by decide, rfl, rfl, rfl, by decide, rfl, rfl⟩

theorem witness_PanicRecoverLeaves : Inv (answered (oks 384)) :=
  have h := witness_RestingBlock
  ⟨h.phase, h.failed, h.pendingWords, h.committedWords, h.tableKeys, h.lines, h.width, h.mode⟩

theorem witness_TheEvents :
    exec (.wordAb .icA .zero .zero) idle = .next (out (exec (.wordAb .icA .zero .zero) idle)) := rfl

theorem witness_PhaseDrives :
    let s := answered (oks 4)
    (∀ ic ∈ [IcId.icA, .icB],
      (icGet s.pin ic).nSleep = true ∧ (icGet s.pin ic).nReset = true ∧ (icGet s.pin ic).strobe = false) ∧
      s.spiOn = true ∧ (both (uniformSets ⟨true, 5, true, true⟩) s).1 = .ok := by decide +kernel

end Sys2Proof.Tests
end

/-! Proofs of the encoding family: the words of 30_encoding R95 and R96, the refusals of R100. -/

section

namespace Sys2Proof.Proofs.Encoding

open Machine Laws

/-! ## SPI words by opcode -/

/-- `wordOf_slots` for a word whose opcode is known: what `encode` makes of the decoded slots. -/
theorem wordOf_slots_of_opcode {w : U16} {op : BitVec 4} (h : w.extractLsb' 12 4 = op) :
    wordOf op (highSlot w) (lowSlot w) = w := by
  rw [← h, wordOf_slots]

/-- The class masks of 30_encoding R95 leave the opcode. -/
theorem and_opcodeMask (w : U16) : w &&& 0xF000#16 = w.extractLsb' 12 4 ++ 0#12 := by
  rw [← wordOf_and_mask _ (highSlot w) (lowSlot w), wordOf_slots]

theorem opcode_of_match {w : U16} {op : BitVec 4} (h : w &&& 0xF000#16 = op ++ 0#12) : w.extractLsb' 12 4 = op := by
  rw [and_opcodeMask] at h
  exact (BitVec.append_left_inj _).mp h

/-- Both opcodes in use have their three high bits zero. -/
theorem reservedBits_eq_zero {w : U16} {op : BitVec 4} (h : w.extractLsb' 12 4 = op) (hop : op = 0#4 ∨ op = 1#4) :
    w &&& 0xE000#16 = 0#16 := by
  have mask : w &&& 0xE000#16 = (op ++ 0#12) &&& 0xE000#16 := by
    rw [← h, ← and_opcodeMask, BitVec.and_assoc, show 0xF000#16 &&& 0xE000#16 = 0xE000#16 by decide]
  rw [mask]
  rcases hop with rfl | rfl <;> decide

theorem decode_word16_opcode_zero (ic : IcId) {w : U16} (h : w.extractLsb' 12 4 = 0#4) :
    decode (.word16 ic w) = .ok (.wordAb ic (highSlot w) (lowSlot w)) := by
  simp [decode, decodeWord, h]

theorem decode_word16_opcode_one (ic : IcId) {w : U16} (h : w.extractLsb' 12 4 = 1#4) :
    decode (.word16 ic w) = .ok (.wordCd ic (highSlot w) (lowSlot w)) := by
  simp [decode, decodeWord, h]

theorem decode_word16_reserved (ic : IcId) {w : U16} (h : w &&& 0xE000#16 ≠ 0#16) :
    decode (.word16 ic w) = .error .reservedWord := by
  have h0 : w.extractLsb' 12 4 ≠ 0#4 := fun e => h (reservedBits_eq_zero e (.inl rfl))
  have h1 : w.extractLsb' 12 4 ≠ 1#4 := fun e => h (reservedBits_eq_zero e (.inr rfl))
  simp [decode, decodeWord, h0, h1]

/-! ## Contributions -/

theorem wordOf_zero_high (op : BitVec 4) (l : ChannelField) : wordOf op .zero l = (op ++ 0#6) ++ l.sub6 := by
  rw [wordOf, sub6_zero]

theorem wordOf_zero_low (op : BitVec 4) (h : ChannelField) : wordOf op h .zero = op ++ h.sub6 ++ 0#6 := by
  rw [wordOf, sub6_zero]

/-- Settles O2: the class mask fixes the opcode, and a word is its opcode and its two slots (`wordOf_slots`). -/
theorem everyWellFormedWordHasOneMeaning : Obligations.EveryWellFormedWordHasOneMeaning := by
  refine ⟨fun ic w h => ?_, fun ic w h => ?_, fun ic w h => decode_word16_reserved ic h, fun w => ?_, fun f => ?_⟩
  · have hop : w.extractLsb' 12 4 = 0#4 := opcode_of_match h
    exact ⟨decode_word16_opcode_zero ic hop, congrArg (Frame.word16 ic) (wordOf_slots_of_opcode hop)⟩
  · have hop : w.extractLsb' 12 4 = 1#4 := opcode_of_match h
    exact ⟨decode_word16_opcode_one ic hop, congrArg (Frame.word16 ic) (wordOf_slots_of_opcode hop)⟩
  · refine ⟨sub6_ofSub6 w, ?_⟩
    rintro f rfl
    exact (ofSub6_sub6 f).symm
  · exact ⟨congrArg (Frame.enc16 .chA) (wordOf_zero_high 0 f), congrArg (Frame.enc16 .chB) (wordOf_zero_low 0 f),
      congrArg (Frame.enc16 .chC) (wordOf_zero_high 1 f), congrArg (Frame.enc16 .chD) (wordOf_zero_low 1 f)⟩

/-! ## Command frames by opcode -/

theorem decode_cmd40_reservedOpcode {w : BitVec 40} (h : 0x0C ≤ (frameHigh w).toNat) :
    decode (.cmd40 w) = .error .reservedOpcode := by
  show decodeCommand w = .error .reservedOpcode
  unfold decodeCommand
  split
  case h_13 => rfl
  all_goals omega -- an opcode in use is below 0x0C

theorem decode_cmd40_indexAboveSeven {w : BitVec 40} (h : (frameHigh w).toNat = 0x08) (hi : 7 < (frameLow w).toNat) :
    decode (.cmd40 w) = .error .indexAboveSeven := by
  have hle : ¬ frameLow w ≤ 7#32 := by simpa [BitVec.le_def] using hi
  simp [decode, decodeCommand, h, hle]

theorem decode_cmd40_mustBeZero {w : BitVec 40} (h : (frameHigh w).toNat = 0x0B)
    (hz : frameLow w &&& 0xFFFFFEF8#32 ≠ 0#32) : decode (.cmd40 w) = .error .mustBeZero := by
  simp [decode, decodeCommand, h, hz]

theorem decode_cmd40_setMode {w : BitVec 40} (h : (frameHigh w).toNat = 0x01) :
    decode (.cmd40 w) = .ok (.setMode (frameLow w)) := by
  simp [decode, decodeCommand, h]

/-- The commands of 30_encoding R99 whose operand is ignored: only the opcode decides. -/
theorem decode_cmd40_congr_of_ignored {w w' : BitVec 40} (he : frameHigh w = frameHigh w')
    (h : (frameHigh w).toNat ∈ [0x00, 0x02, 0x04, 0x06, 0x07, 0x09, 0x0A]) : decode (.cmd40 w) = decode (.cmd40 w') := by
  simp only [List.mem_cons, List.not_mem_nil, or_false] at h
  rcases h with h | h | h | h | h | h | h <;> simp [decode, decodeCommand, ← he, h]

/-! ## Refusal at the port -/

theorem step_of_decode_ok {s : State} {f : Frame} {rest : List Frame} {i : Instr} (h : s.inbox = f :: rest)
    (hd : decode f = .ok i) : step s = exec i (s.setInbox rest) := by
  simp [step, h, hd]

theorem step_cmd40_of_decode_error {s : State} {w : BitVec 40} {rest : List Frame} {why : Reject}
    (h : s.inbox = .cmd40 w :: rest) (hd : decode (.cmd40 w) = .error why) :
    step s = .next (refuse (s.setInbox rest)) := by
  simp [step, h, hd, rejectFrame]

theorem entryOfCode_eq_none {c : Config} {code : U32} (h : ∀ e ∈ c.modes, e.code ≠ code) :
    entryOfCode c code = none := by
  simpa [entryOfCode] using h

/-- A code of no mode is refused in every phase: outside `P_IDLE` by R230, in it by the lookup. -/
theorem exec_setMode_of_no_entry {s : State} {code : U32} (h : entryOfCode s.cfg code = none) :
    exec (.setMode code) s = .next (refuse s) := by
  show execSetMode code s = _
  by_cases hp : s.phase = .idle
  · simp [execSetMode, whenAccepted_idle s _ hp, h]
  · rw [execSetMode, whenAccepted_refused s _ hp]

/-- Settles O3: three refusals are made by the decoder, the fourth by `set_mode`; all are `refuse`, which only adds the
response. -/
theorem framesOutsideTheDomainAreRefused : Obligations.FramesOutsideTheDomainAreRefused := by
  refine ⟨fun s w rest hbox hdom => ?_, fun _ _ he h => decode_cmd40_congr_of_ignored he h⟩
  show step s = .next (refuse (s.setInbox rest))
  rcases hdom with hop | ⟨hop, hindex⟩ | ⟨hop, hzero⟩ | ⟨hop, hcode⟩
  · exact step_cmd40_of_decode_error hbox (decode_cmd40_reservedOpcode hop)
  · exact step_cmd40_of_decode_error hbox (decode_cmd40_indexAboveSeven hop hindex)
  · exact step_cmd40_of_decode_error hbox (decode_cmd40_mustBeZero hop hzero)
  · rw [step_of_decode_ok hbox (decode_cmd40_setMode hop)]
    exact exec_setMode_of_no_entry (entryOfCode_eq_none hcode)

end Sys2Proof.Proofs.Encoding

end

/-! Proofs of the codec family: the constructor of 40_codec R120, the words of R121, R124 and R125. -/

section

namespace Sys2Proof.Proofs.Codec

open Machine Laws

/-! ## Assembling and merging -/

/-- Settles O10: the two words are `wordOf` of the fields (`assemble_eq`), whose slots read back as what was put there. -/
theorem assembledWordsHoldTheFields : Obligations.AssembledWordsHoldTheFields := by
  intro f
  rw [assemble_eq]
  exact ⟨rfl, rfl, lowSlot_wordOf 0 f.chB f.chA, highSlot_wordOf 0 f.chB f.chA, lowSlot_wordOf 1 f.chD f.chC,
    highSlot_wordOf 1 f.chD f.chC⟩

/-- Or-ing 1 into an opcode leaves the bits above its bit 0, the reserved bits 15..13 of the word. -/
theorem reservedBits_or_one (op : BitVec 4) : (op ||| 1#4).extractLsb' 1 3 = op.extractLsb' 1 3 := by
  rw [BitVec.extractLsb'_or, show (1#4).extractLsb' 1 3 = 0#3 by decide, BitVec.or_zero]

/-- Bit 0 of the opcode is bit 12 of the word. -/
theorem opcodeBit_or_one (op : BitVec 4) : (op ||| 1#4).getLsbD 0 = true := by
  rw [BitVec.getLsbD_or, show (1#4).getLsbD 0 = true by decide, Bool.or_true]

/-- Settles O11: any old word is `wordOf` of its opcode and its slots, on which `merge_wordOf` says what `merge` does. -/
theorem mergeReplacesOneSlot : Obligations.MergeReplacesOneSlot := by
  intro ch old f
  obtain ⟨op, h, l, rfl⟩ : ∃ op h l, wordOf op h l = old := ⟨_, _, _, wordOf_slots old⟩
  rw [merge_wordOf]
  refine ⟨?_, ?_, ?_, ?_⟩
  · cases ch <;> simp only [decodeField_low, decodeField_high, lowSlot_wordOf, highSlot_wordOf]
  · cases ch <;> simp only [lowSlot_wordOf, highSlot_wordOf]
  · cases ch <;> simp only [reserved_wordOf, BitVec.ofNat_eq_ofNat, reservedBits_or_one]
  · cases ch <;> simp only [bit12_wordOf, BitVec.ofNat_eq_ofNat, opcodeBit_or_one, Bool.or_false, Bool.or_true]

/-! ## The validating constructor -/

/-- The low three bits of a `u8` of at most 7 are its value. -/
theorem extractLsb'_zero_three_toNat (x : U8) (h : x.toNat ≤ 7) : (x.extractLsb' 0 3).toNat = x.toNat := by
  rw [BitVec.extractLsb'_toNat, Nat.shiftRight_zero]
  exact Nat.mod_eq_of_lt (by omega)

/-- Settles O7: `mkField_eq` gives both outcomes, and the bits it takes of an operand in range are its value. -/
theorem fieldConstructorChecksRanges : Obligations.FieldConstructorChecksRanges := by
  intro decay current phase enable out
  constructor
  · intro h
    refine ⟨_, (mkField_eq ..).trans (if_pos h), ?_⟩
    obtain ⟨hdecay, hcurrent, hphase, henable⟩ := h
    exact ⟨getLsbD_zero_toNat decay hdecay, extractLsb'_zero_three_toNat current hcurrent,
      getLsbD_zero_toNat phase hphase, getLsbD_zero_toNat enable henable⟩
  · intro h
    exact (mkField_eq ..).trans (if_neg h)

/-! ## The encoded field as a number -/

/-- The weights of the members in the six bits (30_encoding R91). -/
theorem toNat_sub6 (f : ChannelField) :
    f.sub6.toNat = f.enable.toNat + 2 * f.phase.toNat + 4 * f.current.toNat + 32 * f.decay.toNat := by
  revert f
  apply forall_field
  decide

/-- The weights of the three parts of a word (30_encoding R92). -/
theorem toNat_wordOf (op : BitVec 4) (h l : ChannelField) :
    (wordOf op h l).toNat = 4096 * op.toNat + 64 * h.sub6.toNat + l.sub6.toNat := by
  rw [wordOf, BitVec.toNat_append, BitVec.toNat_append, ← Nat.shiftLeft_add_eq_or_of_lt h.sub6.isLt,
    ← Nat.shiftLeft_add_eq_or_of_lt l.sub6.isLt, Nat.shiftLeft_eq, Nat.shiftLeft_eq]
  omega

/-- Settles O8: an encoded field is a word with its other slot zero, so its number is the weighted sum of its parts. -/
theorem encodedFieldIsItsNumber : Obligations.EncodedFieldIsItsNumber := by
  intro ch f
  have hlt : f.sub6.toNat < 64 := f.sub6.isLt
  rw [← toNat_sub6]
  cases ch <;>
    simp only [encodeField_chA, encodeField_chB, encodeField_chC, encodeField_chD, toNat_wordOf, sub6_zero,
      BitVec.ofNat_eq_ofNat, BitVec.toNat_ofNat] <;>
    omega

end Sys2Proof.Proofs.Codec

end

/-! Proofs of the driver family: `drv_init` (41_driver R141), the transfer unit (R140) and the two commits (R143, R144). -/

section

namespace Sys2Proof.Proofs.Driver

open Machine Safety Laws

/-- What one transfer leaves in the IC's device side. -/
theorem icGet_xferWord_dev (ic : IcId) (w : U16) (s : State) :
    icGet (xferWord ic w s).2.dev ic =
      devAfterXfer (icGet s.dev ic) (icGet s.pin ic) s.spiOn w (drawnOk s) := by
  rw [xferWord_snd, icGet_icSet_same]

/-- Settles O17: the frame is `xferWord_snd`; the device clauses are the cases of `devAfterXfer`. -/
theorem transferUnit : Obligations.TransferUnit := by
  intro ic w s
  dsimp only
  rw [icGet_xferWord_dev]
  refine ⟨rfl, xferWord_snd s ic w, devAfterXfer_off _ _ _ _ _, fun hsleep hreset hstrobe => ?_,
    fun hsleep hreset hstrobe => ⟨fun hspi hok hreserved => ?_, fun hlost => ?_⟩⟩
  · rw [devAfterXfer_noEdge _ _ _ _ _ hsleep hreset hstrobe]
    exact ⟨rfl, rfl⟩
  · rw [hspi, hok, devAfterXfer_latched _ _ _ hsleep hreset hstrobe hreserved]
  · rcases or_assoc.mpr hlost with hlost | hreserved
    · rw [devAfterXfer_lost _ _ _ _ _ hsleep hreset hstrobe hlost]
      exact ⟨rfl, rfl⟩
    · exact devAfterXfer_reserved _ _ _ _ _ hsleep hreset hstrobe hreserved

/-- Settles O19: `drvInit_eq`, whose events and command sets the statement writes out. -/
theorem driverInit : Obligations.DriverInit := fun ic s => drvInit_eq s ic

/-- `drv_set_single_channel`, the state written out around the one transfer. -/
theorem drvSetSingleChannel_written (ic : IcId) (ch : ChannelId) (f : ChannelField) (s : State) :
    let attempt := updateChannel (icGet s.committed ic) ch f
    let w := wordHolding attempt ch
    drvSetSingleChannel ic ch f s =
      (if drawnOk s then .ok else .transferFailed,
        { s with
          pending := icSet s.pending ic attempt
          committed := if drawnOk s then icSet s.committed ic attempt else s.committed
          pin := icSet s.pin ic (linesAfterXfer (icGet s.pin ic))
          dev := (xferWord ic w s).2.dev
          trace := s.trace ++ xferEvents s.cfg.strobeDelayMs ic w (drawnOk s)
          spiAnswers := s.spiAnswers.tail
          draws := s.draws + 1 }) := by
  dsimp only
  rw [drvSetSingleChannel_eq]
  dsimp only
  rw [xferWord_setPending, xferWord_snd]
  cases drawnOk s <;> rfl

/-- Settles O22: for each channel `updateChannel` and `wordHolding` are the statement's set and word. -/
theorem singleChannelCommit : Obligations.SingleChannelCommit := by
  intro ic ch f s
  dsimp only
  rw [drvSetSingleChannel_written]
  cases ch <;> exact ⟨rfl, rfl⟩

/-- A transfer uses up one draw, and nothing else decides the next answer. -/
theorem drawnOk_xferWord (ic : IcId) (w : U16) (s : State) :
    drawnOk (xferWord ic w s).2 = drawnOk (afterDraw s) := by
  rw [xferWord_snd]
  exact drawnOk_congr rfl rfl

/-- The device side after two words in a row to one IC: the second finds the lines as the first left them. -/
theorem xferWord_xferWord_dev (ic : IcId) (w w' : U16) (s : State) :
    (xferWord ic w' (xferWord ic w s).2).2.dev =
      icSet s.dev ic
        (devAfterXfer (devAfterXfer (icGet s.dev ic) (icGet s.pin ic) s.spiOn w (drawnOk s))
          (linesAfterXfer (icGet s.pin ic)) s.spiOn w' (drawnOk (afterDraw s))) := by
  rw [← drawnOk_xferWord ic w s, xferWord_snd _ ic w']
  simp only [xferWord_snd s ic w, icGet_icSet_same, icSet_icSet]

/-- The answers to the next two transfers, one by one. -/
theorem nextAnswers_two_eq {s : State} {ok ok' : Bool} (h : nextAnswers s 2 = [ok, ok']) :
    drawnOk s = ok ∧ drawnOk (afterDraw s) = ok' := by
  simpa [nextAnswers] using h

/-- Settles O23: the outcomes are `drvSetAllChannels_first` and `drvSetAllChannels_second`, with the device side that these
lemmas write out put back as that of the transfers sent. -/
theorem allChannelCommit : Obligations.AllChannelCommit := by
  intro ic f s
  dsimp only
  refine ⟨fun h => ?_, fun h => ?_, fun h => ?_⟩
  · have hAB : drawnOk s = false := List.head_eq_of_cons_eq h
    rw [drvSetAllChannels_first s ic f hAB, xferWord_snd s ic, hAB, icSet_icGet, List.drop_one]
    rfl
  all_goals
    obtain ⟨hAB, hCD⟩ := nextAnswers_two_eq h
    rw [drvSetAllChannels_second s ic f _ hAB hCD, xferWord_xferWord_dev, hAB, hCD, ← List.tail_drop, List.drop_one]
    rfl

end Sys2Proof.Proofs.Driver

end

/-! Proofs of the preset family: the expansion of a preset through the valve map (42_presets R171). -/

section

namespace Sys2Proof.Proofs.Presets

open Machine Laws

/-- The field of a validated target holds the target's members as numbers. -/
theorem members_of_targetField {t : ValveTarget} {enable : Bool} {f : ChannelField}
    (h : targetField t enable = some f) :
    f.enable = enable ∧ f.phase.toNat = t.direction.toNat ∧ f.current.toNat = t.current.toNat ∧
      f.decay.toNat = t.decay.toNat := by
  rw [targetField_eq, Option.ite_none_right_eq_some, Option.some.injEq] at h
  obtain ⟨hin, rfl⟩ := h
  have hrange := (inRange_iff t).mp hin
  exact ⟨rfl, getLsbD_zero_toNat t.direction (by omega), Codec.extractLsb'_zero_three_toNat t.current (by omega),
    getLsbD_zero_toNat t.decay (by omega)⟩

theorem inRange_eq_false_iff (t : ValveTarget) :
    t.inRange = false ↔ t.direction.toNat > 1 ∨ t.current.toNat > 7 ∨ t.decay.toNat > 1 := by
  rw [← Bool.not_eq_true, inRange_iff, not_not]

/-- `route` goes over every valve, so it fails exactly at a preset with some target out of range. -/
theorem route_eq_none_iff (c : Config) (p : Preset) (enable : Bool) :
    route c p enable = none ↔ ∃ v, (valveGet p.valve v).inRange = false := by
  simp only [route, routeFrom_none_iff, mem_valveOrder, true_and]

/-- Under a bijective map no valve's channel is overwritten by a later one. -/
theorem targetField_of_route {c : Config} {p : Preset} {enable : Bool} {F : FieldSets}
    (hmap : c.valveMap.toList.Nodup) (h : route c p enable = some F) (v : ValveId) :
    targetField (valveGet p.valve v) enable =
      some (chGet (icGet F (valveLookup c v).1) (valveLookup c v).2) :=
  have written := (routeFrom_some_get c p enable valveOrder FieldSets.start F
    (valveLookup_injective c hmap) (by decide) h).1
  (written v (mem_valveOrder v)).symm

/-- Settles O25: failure is `route_eq_none_iff`; a success leaves each valve's validated field in its channel
(`targetField_of_route`), and a map without repetition reaches all eight channels. -/
theorem routeExpandsThePreset : Obligations.RouteExpandsThePreset := by
  intro c p enable
  refine ⟨?_, fun hmap F h => ⟨fun v => ?_, valveLookup_surjective c hmap⟩⟩
  · rw [route_eq_none_iff]
    exact exists_congr fun v => inRange_eq_false_iff (valveGet p.valve v)
  · exact members_of_targetField (targetField_of_route hmap h v)

end Sys2Proof.Proofs.Presets

end

/-! Proofs of the motion-control family: one phase and the commands of 43_motion_control. -/

section

namespace Sys2Proof.Proofs.Motion

open Machine Safety Laws

/-! ## Answers -/

theorem length_nextAnswers (s : State) (n : Nat) : (nextAnswers s n).length = n := by
  induction n generalizing s with
  | zero => rfl
  | succ n ih => rw [nextAnswers, List.length_cons, ih]

/-- The first answers, when those to more transfers are known. -/
theorem nextAnswers_eq_of_add {s : State} {oks oks' : List Bool} {m n : Nat} (h : nextAnswers s (m + n) = oks ++ oks')
    (hlen : oks.length = m) : nextAnswers s m = oks := by
  rw [nextAnswers_add] at h
  exact (List.append_inj h ((length_nextAnswers s m).trans hlen.symm)).1

theorem nextAnswers_setPhase (s : State) (x : Phase) (n : Nat) : nextAnswers (s.setPhase x) n = nextAnswers s n :=
  nextAnswers_congr (setPhase_spiAnswers s x) (setPhase_draws s x) n

/-! ## What the steps of an actuation write -/

/-- `t` is `s` after some steps of an actuation that emitted `es` and drew `n` answers, `pending` and `committed` as named.
The lines, the device, the phase and `failed` are left open, which the tail sets in any case. -/
def Actuated (s t : State) (pending committed : ByIc IcCommandSet) (es : List Event) (n : Nat) : Prop :=
  ∃ pin dev phase failed, t = { s with
    pending := pending
    committed := committed
    pin := pin
    dev := dev
    phase := phase
    failed := failed
    trace := s.trace ++ es
    spiAnswers := s.spiAnswers.drop n
    draws := s.draws + n }

section Actuated

variable {s t u : State} {p c p' c' : ByIc IcCommandSet} {es es' : List Event} {n n' : Nat}

theorem Actuated.refl (s : State) : Actuated s s s.pending s.committed [] 0 :=
  ⟨s.pin, s.dev, s.phase, s.failed, by rw [List.append_nil]; rfl⟩

theorem Actuated.trans (h : Actuated s t p c es n) (h' : Actuated t u p' c' es' n') :
    Actuated s u p' c' (es ++ es') (n + n') := by
  obtain ⟨_, _, _, _, rfl⟩ := h
  obtain ⟨pin, dev, phase, failed, rfl⟩ := h'
  refine ⟨pin, dev, phase, failed, ?_⟩
  simp only [List.append_assoc, List.drop_drop, Nat.add_assoc]

theorem Actuated.setPhase (h : Actuated s t p c es n) (x : Phase) : Actuated s (t.setPhase x) p c es n := by
  obtain ⟨pin, dev, _, failed, rfl⟩ := h
  exact ⟨pin, dev, x, failed, rfl⟩

theorem Actuated.of_setPhase {x : Phase} (h : Actuated (s.setPhase x) t p c es n) : Actuated s t p c es n := by
  obtain ⟨pin, dev, phase, failed, rfl⟩ := h
  exact ⟨pin, dev, phase, failed, rfl⟩

theorem Actuated.hold (h : Actuated s t p c es n) (ms : U32) : Actuated s (hold ms t) p c (es ++ [.delay ms]) n := by
  obtain ⟨pin, dev, _, failed, rfl⟩ := h
  refine ⟨pin, dev, .hold, failed, ?_⟩
  rw [hold_eq]
  simp only [List.append_assoc]

theorem Actuated.cfg (h : Actuated s t p c es n) : t.cfg = s.cfg := by
  obtain ⟨_, _, _, _, rfl⟩ := h
  rfl

theorem Actuated.pulseWidthMs (h : Actuated s t p c es n) : t.pulseWidthMs = s.pulseWidthMs := by
  obtain ⟨_, _, _, _, rfl⟩ := h
  rfl

theorem Actuated.pending (h : Actuated s t p c es n) : t.pending = p := by
  obtain ⟨_, _, _, _, rfl⟩ := h
  rfl

theorem Actuated.committed (h : Actuated s t p c es n) : t.committed = c := by
  obtain ⟨_, _, _, _, rfl⟩ := h
  rfl

theorem Actuated.trace (h : Actuated s t p c es n) : t.trace = s.trace ++ es := by
  obtain ⟨_, _, _, _, rfl⟩ := h
  rfl

/-- The answers after `n` draws are those of `t`. -/
theorem Actuated.nextAnswers_add (h : Actuated s t p c es n) (m : Nat) :
    nextAnswers s (n + m) = nextAnswers s n ++ nextAnswers t m := by
  obtain ⟨_, _, _, _, rfl⟩ := h
  rw [Laws.nextAnswers_add]
  exact congrArg _ (nextAnswers_congr (by rfl) (by rfl) m)

theorem Actuated.nextAnswers_of_no_draw (h : Actuated s t p c es 0) (m : Nat) : nextAnswers t m = nextAnswers s m := by
  rw [← Nat.zero_add m, h.nextAnswers_add, Nat.zero_add]
  rfl

theorem Actuated.nextAnswers_eq (h : Actuated s t p c es n) {oks oks' : List Bool} {m : Nat}
    (ha : nextAnswers s (n + m) = oks ++ oks') (hlen : oks.length = n) : nextAnswers t m = oks' := by
  rw [h.nextAnswers_add] at ha
  exact (List.append_inj ha ((length_nextAnswers s n).trans hlen.symm)).2

/-- The end of an actuation, the state written out (60_exceptions R235). -/
theorem Actuated.finish (h : Actuated s t p c es n) (r : Result) :
    finish r t = { s with
      pending := p
      committed := c
      pin := pinsAsleep
      spiOn := true
      dev := devCleared
      phase := .idle
      failed := false
      trace := s.trace ++ es ++ tailEvents s.cfg
      spiAnswers := s.spiAnswers.drop n
      draws := s.draws + n
      results := s.results ++ [.response r 0] } := by
  obtain ⟨_, _, _, _, rfl⟩ := h
  rw [finish_eq]

/-- The commit comes before the tail, whose events follow its own. -/
theorem Actuated.finish_commitMode (h : Actuated s t p c es n) (m : Mode) (q : Preset) :
    Machine.finish .ok (commitMode m q t) = { s with
      pending := p
      committed := c
      relay := pumpFor s.cfg m q
      mirror := q
      mode := m
      pin := pinsAsleep
      spiOn := true
      dev := devCleared
      phase := .idle
      failed := false
      trace := s.trace ++ es ++ [.relay (pumpFor s.cfg m q)] ++ tailEvents s.cfg
      spiAnswers := s.spiAnswers.drop n
      draws := s.draws + n
      results := s.results ++ [.response .ok 0] } := by
  obtain ⟨_, _, _, _, rfl⟩ := h
  rw [finish_eq, commitMode_eq]

/-- `init()` after some steps of an actuation: only the device side is still theirs (43_motion_control R207). -/
theorem Actuated.initRun (h : Actuated s t p c es n) :
    initRun t = { s with
      table := s.cfg.modes.map fun e => (e.mode, e.preset)
      pending := ⟨.zero, .zero⟩
      committed := ⟨.zero, .zero⟩
      pin := pinsAwake
      spiOn := true
      relay := s.cfg.relayInit
      mode := .rest
      mirror := presetDefault s.cfg .rest
      failed := false
      phase := .idle
      dev := t.dev
      trace := s.trace ++ es ++ initEvents s.cfg
      spiAnswers := s.spiAnswers.drop n
      draws := s.draws + n } := by
  obtain ⟨_, _, _, _, rfl⟩ := h
  rw [initRun_eq]

end Actuated

/-! ## One phase (43_motion_control R192) -/

section Phase

variable {s : State} {F : FieldSets}

theorem unitEvents_pair (strobeMs : U32) (x y : IcId × U16) (ok : Bool) :
    unitEvents strobeMs [x, y] [true, ok] = xferEvents strobeMs x.1 x.2 true ++ xferEvents strobeMs y.1 y.2 ok := by
  cases ok <;> rfl

theorem drvSetAllChannels_actuated_of_AB_failed (ic : IcId) (f : ByChannel ChannelField)
    (h : nextAnswers s 1 = [false]) :
    ∃ t, drvSetAllChannels ic f s = (.transferFailed, t) ∧
      Actuated s t (icSet s.pending ic (freshSet f)) s.committed
        (unitEvents s.cfg.strobeDelayMs [(ic, (assemble f).1), (ic, (assemble f).2)] [false]) 1 :=
  ⟨_, drvSetAllChannels_first s ic f (List.head_eq_of_cons_eq h), _, _, s.phase, s.failed, by rw [List.drop_one]; rfl⟩

/-- The AB word went through, the CD word was answered `ok`. -/
theorem drvSetAllChannels_actuated_of_AB_ok (ic : IcId) (f : ByChannel ChannelField) {ok : Bool}
    (h : nextAnswers s 2 = [true, ok]) :
    ∃ t, drvSetAllChannels ic f s = (if ok then .ok else .partialCommit, t) ∧
      Actuated s t (icSet s.pending ic (freshSet f))
        (icSet s.committed ic (if ok then freshSet f else commitAB (icGet s.committed ic) f))
        (unitEvents s.cfg.strobeDelayMs [(ic, (assemble f).1), (ic, (assemble f).2)] [true, ok]) 2 := by
  obtain ⟨hAB, hCD⟩ := Driver.nextAnswers_two_eq h
  exact ⟨_, drvSetAllChannels_second s ic f ok hAB hCD, _, _, s.phase, s.failed,
    by rw [unitEvents_pair, ← List.tail_drop, List.drop_one]⟩

theorem both_of_icA_failed {t : State} {r : Result} (h : drvSetAllChannels .icA F.icA s = (r, t)) (hr : r ≠ .ok) :
    both F s = (r, t) := by
  rw [both_eq, h, if_neg hr]

theorem both_of_icA_ok {t : State} (h : drvSetAllChannels .icA F.icA s = (.ok, t)) :
    both F s = drvSetAllChannels .icB F.icB t := by
  rw [both_eq, h, if_pos rfl]

/-- When IC_A's two words go through, the phase is what IC_B's call makes of it. -/
theorem both_actuated_of_icB {n : Nat} {oks : List Bool} (h : nextAnswers s (2 + n) = [true, true] ++ oks) :
    ∃ t, both F s = drvSetAllChannels .icB F.icB t ∧ nextAnswers t n = oks ∧
      Actuated s t { s.pending with icA := freshSet F.icA } { s.committed with icA := freshSet F.icA }
        (unitEvents s.cfg.strobeDelayMs [(.icA, (assemble F.icA).1), (.icA, (assemble F.icA).2)] [true, true]) 2 := by
  have hA : nextAnswers s 2 = [true, true] := nextAnswers_eq_of_add h rfl
  obtain ⟨t, ht, hact⟩ := drvSetAllChannels_actuated_of_AB_ok .icA F.icA hA
  exact ⟨t, both_of_icA_ok ht, hact.nextAnswers_eq h rfl, hact⟩

theorem both_actuated_of_ok (h : nextAnswers s 4 = List.replicate 4 true) :
    ∃ t, both F s = (.ok, t) ∧ Actuated s t ⟨freshSet F.icA, freshSet F.icB⟩ ⟨freshSet F.icA, freshSet F.icB⟩
      (unitEvents s.cfg.strobeDelayMs (phaseWords F) [true, true, true, true]) 4 := by
  obtain ⟨t, hboth, hB, hactA⟩ := both_actuated_of_icB (F := F) (n := 2) (oks := [true, true]) h
  obtain ⟨u, hu, hactB⟩ := drvSetAllChannels_actuated_of_AB_ok .icB F.icB hB
  rw [hactA.cfg, hactA.pending, hactA.committed] at hactB
  exact ⟨u, hboth.trans hu, hactA.trans hactB⟩

/-- The phase stops at word `k`. -/
theorem both_actuated_of_failed {k : Nat} (hk : k < 4) (h : nextAnswers s (k + 1) = List.replicate k true ++ [false]) :
    ∃ t, both F s = (failureOf k, t) ∧
      Actuated s t ⟨freshSet F.icA, if k < 2 then s.pending.icB else freshSet F.icB⟩
        ((List.range k).foldl (commitWord F) s.committed)
        (unitEvents s.cfg.strobeDelayMs (phaseWords F) (List.replicate k true ++ [false])) (k + 1) := by
  interval_cases k
  · obtain ⟨t, ht, hact⟩ := drvSetAllChannels_actuated_of_AB_failed .icA F.icA h
    exact ⟨t, both_of_icA_failed ht (by decide), hact⟩
  · obtain ⟨t, ht, hact⟩ := drvSetAllChannels_actuated_of_AB_ok .icA F.icA h
    exact ⟨t, both_of_icA_failed ht (by decide), hact⟩
  · obtain ⟨t, hboth, hB, hactA⟩ := both_actuated_of_icB (F := F) (n := 1) (oks := [false]) h
    obtain ⟨u, hu, hactB⟩ := drvSetAllChannels_actuated_of_AB_failed .icB F.icB hB
    rw [hactA.cfg, hactA.pending, hactA.committed] at hactB
    exact ⟨u, hboth.trans hu, hactA.trans hactB⟩
  · obtain ⟨t, hboth, hB, hactA⟩ := both_actuated_of_icB (F := F) (n := 2) (oks := [true, false]) h
    obtain ⟨u, hu, hactB⟩ := drvSetAllChannels_actuated_of_AB_ok .icB F.icB hB
    rw [hactA.cfg, hactA.pending, hactA.committed] at hactB
    exact ⟨u, hboth.trans hu, hactA.trans hactB⟩

/-- Settles O28: the cases of a phase are those of IC_A's call and, when it went through, of IC_B's
(`both_actuated_of_ok`, `both_actuated_of_failed`). -/
theorem phaseAddressesIcAFirst : Obligations.PhaseAddressesIcAFirst := by
  refine fun F s => ⟨fun h => ?_, fun k hk h => ?_⟩
  · obtain ⟨t, ht, hact⟩ := both_actuated_of_ok (F := F) h
    rw [ht]
    exact ⟨rfl, hact.trace, hact.committed⟩
  · obtain ⟨t, ht, hact⟩ := both_actuated_of_failed (F := F) hk h
    rw [ht]
    exact ⟨rfl, hact.trace, hact.committed, fun h2 => by rw [hact.pending, if_pos h2]⟩

end Phase

/-! ## `set_mode` (43_motion_control R193) -/

section SetMode

variable {s : State} {Fon Foff : FieldSets}

theorem woken_actuated (s : State) : Actuated s (woken s) s.pending s.committed (wakeEvents s.cfg) 0 :=
  ⟨_, _, _, _, woken_eq s⟩

/-- The first four words are the pulse's. -/
theorem committedAfter_of_le {c : ByIc IcCommandSet} {k : Nat} (hk : k ≤ 4) :
    committedAfter Fon Foff c k = (List.range k).foldl (commitWord Fon) c :=
  List.foldl_ext _ _ _ fun _ _ hn => if_pos ((List.mem_range.mp hn).trans_le hk)

/-- The words after them are the release's, which finds the pulse's fields committed. -/
theorem committedAfter_add (c : ByIc IcCommandSet) (j : Nat) :
    committedAfter Fon Foff c (4 + j) = (List.range j).foldl (commitWord Foff) ⟨freshSet Fon.icA, freshSet Fon.icB⟩ := by
  have release : ∀ c n, (if 4 + n < 4 then commitWord Fon c (4 + n) else commitWord Foff c (4 + n - 4)) =
      commitWord Foff c n := by
    intro c n
    rw [if_neg (by omega), Nat.add_sub_cancel_left]
  rw [committedAfter, List.range_add, List.foldl_append, List.foldl_map]
  simp only [release]
  rfl

theorem pendingAfter_of_lt (c : ByIc IcCommandSet) {k : Nat} (hk : k < 4) :
    pendingAfter Fon Foff c k = ⟨freshSet Fon.icA, if k < 2 then c.icB else freshSet Fon.icB⟩ := by
  rw [pendingAfter, if_pos hk, if_pos (by omega : k < 6)]

theorem pendingAfter_add (c : ByIc IcCommandSet) {j : Nat} (hj : j < 4) :
    pendingAfter Fon Foff c (4 + j) = ⟨freshSet Foff.icA, if j < 2 then freshSet Fon.icB else freshSet Foff.icB⟩ := by
  rw [pendingAfter, if_neg (by omega), if_neg (by omega)]
  congr 1
  exact if_congr (by omega) rfl rfl

theorem failureOf_add (j : Nat) : failureOf (4 + j) = failureOf j := by
  rw [failureOf, failureOf, show (4 + j) % 2 = j % 2 by omega]

theorem failureOf_ne_ok (k : Nat) : failureOf k ≠ .ok := by
  unfold failureOf
  split <;> decide

theorem actuate_of_pulse_failed {m : Mode} {p : Preset} {t : State} {r : Result}
    (h : both Fon (s.setPhase .pulse) = (r, t)) (hr : r ≠ .ok) : actuate m p Fon Foff s = (r, t) := by
  rw [actuate, h]
  exact if_neg hr

theorem actuate_of_pulse_ok {m : Mode} {p : Preset} {t : State} (h : both Fon (s.setPhase .pulse) = (.ok, t)) :
    actuate m p Fon Foff s = releaseAndCommit m p Foff (hold t.pulseWidthMs t) := by
  rw [actuate, h]
  exact if_pos rfl

theorem releaseAndCommit_of_failed {m : Mode} {p : Preset} {t : State} {r : Result}
    (h : both Foff (s.setPhase .release) = (r, t)) (hr : r ≠ .ok) : releaseAndCommit m p Foff s = (r, t) := by
  rw [releaseAndCommit, h]
  exact if_neg hr

theorem releaseAndCommit_of_ok {m : Mode} {p : Preset} {t : State} (h : both Foff (s.setPhase .release) = (.ok, t)) :
    releaseAndCommit m p Foff s = (.ok, commitMode m p t) := by
  rw [releaseAndCommit, h]
  exact if_pos rfl

theorem exec_setMode_of_entry {code : U32} {e : ModeEntry} (hidle : s.phase = .idle)
    (he : entryOfCode s.cfg code = some e) : exec (.setMode code) s = .next (setModeRun e.mode s) := by
  show execSetMode code s = _
  rw [execSetMode, whenAccepted_idle s _ hidle, he]

theorem setModeRun_of_route_none {m : Mode} (h : route s.cfg (tableGet s.table m) true = none) :
    setModeRun m s = finish .invalidParameter (woken s) := by
  rw [setModeRun_eq, h]

theorem setModeRun_of_route {m : Mode} (hon : route s.cfg (tableGet s.table m) true = some Fon)
    (hoff : route s.cfg (tableGet s.table m) false = some Foff) {r : Result} {t : State}
    (h : actuate m (tableGet s.table m) Fon Foff (woken s) = (r, t)) : setModeRun m s = finish r t := by
  rw [setModeRun_eq, hon, hoff]
  simp only [h]

/-- The pulse stops at word `k`, and the actuation with it. -/
theorem actuate_actuated_of_pulse_failed (m : Mode) (p : Preset) {k : Nat} (hk : k < 4)
    (h : nextAnswers s (k + 1) = List.replicate k true ++ [false]) :
    ∃ t, actuate m p Fon Foff s = (failureOf k, t) ∧
      Actuated s t (pendingAfter Fon Foff s.pending k) (committedAfter Fon Foff s.committed k)
        (unitEvents s.cfg.strobeDelayMs (phaseWords Fon) (List.replicate k true ++ [false])) (k + 1) := by
  obtain ⟨t, ht, hact⟩ := both_actuated_of_failed (s := s.setPhase .pulse) (F := Fon) hk
    ((nextAnswers_setPhase s _ _).trans h)
  refine ⟨t, actuate_of_pulse_failed ht (failureOf_ne_ok k), ?_⟩
  rw [pendingAfter_of_lt _ hk, committedAfter_of_le hk.le]
  exact hact.of_setPhase

/-- When the pulse goes through, the actuation is what follows the hold. -/
theorem actuate_actuated_of_pulse_ok (m : Mode) (p : Preset) {n : Nat} {oks : List Bool}
    (h : nextAnswers s (4 + n) = List.replicate 4 true ++ oks) :
    ∃ t, actuate m p Fon Foff s = releaseAndCommit m p Foff t ∧ nextAnswers (t.setPhase .release) n = oks ∧
      Actuated s (t.setPhase .release) ⟨freshSet Fon.icA, freshSet Fon.icB⟩ ⟨freshSet Fon.icA, freshSet Fon.icB⟩
        (unitEvents s.cfg.strobeDelayMs (phaseWords Fon) [true, true, true, true] ++ [.delay s.pulseWidthMs]) 4 := by
  have hpulse : nextAnswers (s.setPhase .pulse) 4 = List.replicate 4 true :=
    nextAnswers_eq_of_add ((nextAnswers_setPhase s _ _).trans h) rfl
  obtain ⟨t, ht, hact⟩ := both_actuated_of_ok (F := Fon) hpulse
  have held := ((hact.of_setPhase).hold t.pulseWidthMs).setPhase .release
  refine ⟨hold t.pulseWidthMs t, actuate_of_pulse_ok ht, held.nextAnswers_eq h rfl, ?_⟩
  rw [hact.of_setPhase.pulseWidthMs] at held ⊢
  exact held

/-- The release stops at its word `j`, the actuation's word `4 + j`. -/
theorem actuate_actuated_of_release_failed (m : Mode) (p : Preset) {j : Nat} (hj : j < 4)
    (h : nextAnswers s (4 + j + 1) = List.replicate (4 + j) true ++ [false]) :
    ∃ t, actuate m p Fon Foff s = (failureOf (4 + j), t) ∧
      Actuated s t (pendingAfter Fon Foff s.pending (4 + j)) (committedAfter Fon Foff s.committed (4 + j))
        (unitEvents s.cfg.strobeDelayMs (phaseWords Fon) [true, true, true, true] ++ [.delay s.pulseWidthMs] ++
          unitEvents s.cfg.strobeDelayMs (phaseWords Foff) (List.replicate j true ++ [false])) (4 + (j + 1)) := by
  rw [Nat.add_assoc, List.replicate_add, List.append_assoc] at h
  obtain ⟨t, hpulse, hrelease, held⟩ := actuate_actuated_of_pulse_ok (Fon := Fon) (Foff := Foff) m p h
  obtain ⟨u, hu, hact⟩ := both_actuated_of_failed (F := Foff) hj hrelease
  refine ⟨u, ?_, ?_⟩
  · rw [hpulse, failureOf_add]
    exact releaseAndCommit_of_failed hu (failureOf_ne_ok j)
  · rw [held.cfg, held.pending, held.committed] at hact
    rw [pendingAfter_add _ hj, committedAfter_add]
    exact held.trans hact

/-- Both phases go through, and the mode is committed. -/
theorem actuate_actuated_of_ok (m : Mode) (p : Preset) (h : nextAnswers s 8 = List.replicate 8 true) :
    ∃ t, actuate m p Fon Foff s = (.ok, commitMode m p t) ∧
      Actuated s t ⟨freshSet Foff.icA, freshSet Foff.icB⟩ ⟨freshSet Foff.icA, freshSet Foff.icB⟩
        (unitEvents s.cfg.strobeDelayMs (phaseWords Fon) [true, true, true, true] ++ [.delay s.pulseWidthMs] ++
          unitEvents s.cfg.strobeDelayMs (phaseWords Foff) [true, true, true, true]) 8 := by
  obtain ⟨t, hpulse, hrelease, held⟩ :=
    actuate_actuated_of_pulse_ok (Fon := Fon) (Foff := Foff) m p (n := 4) (oks := List.replicate 4 true) h
  obtain ⟨u, hu, hact⟩ := both_actuated_of_ok (F := Foff) hrelease
  refine ⟨u, hpulse.trans (releaseAndCommit_of_ok hu), ?_⟩
  rw [held.cfg] at hact
  exact held.trans hact

/-- Settles O29: validation failed, both phases went through, or word `k` failed, in the pulse or in the release; each time
the tail follows what the steps before it wrote (`Actuated.finish`). -/
theorem setModeFollowsItsSteps : Obligations.SetModeFollowsItsSteps := by
  intro s code e hidle he
  dsimp only
  rw [exec_setMode_of_entry hidle he]
  have wake := woken_actuated s
  refine ⟨fun hnone => ⟨devCleared, ?_⟩, fun Fon Foff hon hoff =>
    ⟨fun h => ⟨devCleared, ?_⟩, fun k hk h => ⟨devCleared, ?_⟩⟩⟩
  · rw [setModeRun_of_route_none hnone, wake.finish]
    rfl
  · obtain ⟨t, ht, hact⟩ := actuate_actuated_of_ok (s := woken s) (Fon := Fon) (Foff := Foff) e.mode
      (tableGet s.table e.mode) ((nextAnswers_congr (woken_spiAnswers s) (woken_draws s) _).trans h)
    rw [setModeRun_of_route hon hoff ht, (wake.trans hact).finish_commitMode]
    simp only [woken_cfg, woken_pulseWidthMs, List.append_assoc, Nat.zero_add]
  · have h' := (nextAnswers_congr (woken_spiAnswers s) (woken_draws s) _).trans h
    rcases lt_or_ge k 4 with hlt | hge
    · obtain ⟨t, ht, hact⟩ := actuate_actuated_of_pulse_failed (Fon := Fon) (Foff := Foff) e.mode
        (tableGet s.table e.mode) hlt h'
      rw [setModeRun_of_route hon hoff ht, (wake.trans hact).finish, min_eq_left hlt.le, if_pos hlt]
      simp only [woken_cfg, woken_pending, woken_committed, List.append_assoc, List.nil_append, Nat.zero_add]
    · obtain ⟨j, rfl⟩ := Nat.exists_eq_add_of_le hge
      obtain ⟨t, ht, hact⟩ := actuate_actuated_of_release_failed (Fon := Fon) (Foff := Foff) e.mode
        (tableGet s.table e.mode) (by omega) h'
      rw [setModeRun_of_route hon hoff ht, (wake.trans hact).finish, min_eq_right hge, if_neg hge.not_gt,
        Nat.add_sub_cancel_left]
      simp only [woken_cfg, woken_pending, woken_committed, woken_pulseWidthMs, List.append_assoc, Nat.zero_add]
      rfl

end SetMode

/-! ## `panic_recover` (43_motion_control R207) -/

/-- The five pieces of one cycle. -/
def panicCycleItems (c : Config) (width : U32) (direction : Bool) : List PanicItem :=
  let on := uniformSets (panicField c direction true)
  let off := uniformSets (panicField c direction false)
  [.call .icA on.icA, .call .icB on.icB, .hold width, .call .icA off.icA, .call .icB off.icB]

/-- The pieces for one width: forward, then reverse. -/
def panicWidthItems (c : Config) (width : U32) : List PanicItem :=
  panicCycleItems c width true ++ panicCycleItems c width false

theorem panicItems_eq (c : Config) : panicItems c = c.panicWidths.flatMap (panicWidthItems c) := rfl

/-- `t` is what the pieces of `panic_recover`'s loop make of `s`, whatever phases are set between them; `n` answers are
enough for them. -/
inductive PanicRun : Nat → List PanicItem → State → State → Prop
  | nil (s : State) : PanicRun 0 [] s s
  | phase {n : Nat} {xs : List PanicItem} {s t : State} (x : Phase) (h : PanicRun n xs (s.setPhase x) t) :
    PanicRun n xs s t
  | hold {n : Nat} {xs : List PanicItem} {s t : State} (ms : U32) (h : PanicRun n xs (hold ms s) t) :
    PanicRun n (.hold ms :: xs) s t
  | call {n : Nat} {xs : List PanicItem} {s t : State} (ic : IcId) (f : ByChannel ChannelField)
    (h : PanicRun n xs (drvSetAllChannels ic f s).2 t) : PanicRun (n + 2) (.call ic f :: xs) s t

section Panic

variable {s t : State} {n : Nat} {xs : List PanicItem}

theorem panicRun_panicCycle (width : U32) (direction : Bool) (h : PanicRun n xs (panicCycle width direction s) t) :
    PanicRun (n + 8) (panicCycleItems s.cfg width direction ++ xs) s t := by
  refine .phase .pulse (.call _ _ (.call _ _ (.hold _ (.phase .release (.call _ _ (.call _ _ ?_))))))
  simpa [panicCycle, panicPhase, hold_eq] using h

/-- The loop of `panic_recover` is its pieces. -/
theorem panicRun_panicCycles (widths : List U32) (s : State) :
    PanicRun (16 * widths.length) (widths.flatMap (panicWidthItems s.cfg)) s (panicCycles widths s) := by
  induction widths generalizing s with
  | nil => exact .nil s
  | cons width widths ih =>
    have rest := ih (panicCycle width false (panicCycle width true s))
    have cycles := panicRun_panicCycle width true (panicRun_panicCycle width false rest)
    rw [panicCycle_cfg, panicCycle_cfg, panicCycle_cfg, ← List.append_assoc] at cycles
    exact cycles

/-- One call of the loop, whatever its words are answered: a failed AB word uses one answer, else there are two. -/
theorem panicItemEvents_call (ic : IcId) (f : ByChannel ChannelField) (s : State) :
    ∃ p c es n, Actuated s (drvSetAllChannels ic f s).2 p c es n ∧ n ≤ 2 ∧ es.countP isSpi = n ∧
      ∀ xs m, panicItemEvents s.cfg.strobeDelayMs (.call ic f :: xs) (nextAnswers s (m + 2)) =
        es ++ panicItemEvents s.cfg.strobeDelayMs xs (nextAnswers (drvSetAllChannels ic f s).2 (m + 2 - n)) := by
  cases hAB : drawnOk s with
  | false =>
    have hone : nextAnswers s 1 = [false] := congrArg ([·]) hAB
    obtain ⟨t, ht, hact⟩ := drvSetAllChannels_actuated_of_AB_failed ic f hone
    rw [ht]
    refine ⟨_, _, _, _, hact, by decide, rfl, fun xs m => ?_⟩
    rw [show m + 2 = 1 + (m + 1) by omega, hact.nextAnswers_add, hone, Nat.add_sub_cancel_left]
    rfl
  | true =>
    have htwo : nextAnswers s 2 = [true, drawnOk (afterDraw s)] := congrArg (· :: [drawnOk (afterDraw s)]) hAB
    obtain ⟨t, ht, hact⟩ := drvSetAllChannels_actuated_of_AB_ok ic f htwo
    rw [unitEvents_pair] at hact
    rw [ht]
    refine ⟨_, _, _, _, hact, le_rfl, rfl, fun xs m => ?_⟩
    rw [Nat.add_comm, hact.nextAnswers_add, htwo, Nat.add_sub_cancel_left]
    rfl

/-- What the pieces emit and draw is `panicItemEvents` of the answers they find. -/
theorem PanicRun.actuated (h : PanicRun n xs s t) {m : Nat} (hm : n ≤ m) :
    let es := panicItemEvents s.cfg.strobeDelayMs xs (nextAnswers s m)
    ∃ p c, Actuated s t p c es (es.countP isSpi) := by
  induction h generalizing m with
  | nil s => exact ⟨_, _, .refl s⟩
  | phase x _ ih =>
    obtain ⟨p, c, hact⟩ := ih hm
    rw [nextAnswers_setPhase] at hact
    exact ⟨p, c, hact.of_setPhase⟩
  | @hold _ _ s _ ms _ ih =>
    obtain ⟨p, c, hrest⟩ := ih hm
    have hhold := (Actuated.refl s).hold ms
    rw [hhold.cfg, hhold.nextAnswers_of_no_draw] at hrest
    have hact := hhold.trans hrest
    rw [Nat.zero_add] at hact
    exact ⟨p, c, hact⟩
  | @call _ xs s _ ic f _ ih =>
    obtain ⟨_, _, es, k, hcall, hk, hcount, hevents⟩ := panicItemEvents_call ic f s
    obtain ⟨m, rfl⟩ := Nat.exists_eq_add_of_le' (le_of_add_le_right hm)
    obtain ⟨p, c, hrest⟩ := ih (m := m + 2 - k) (by omega)
    rw [hcall.cfg] at hrest
    refine ⟨p, c, ?_⟩
    rw [hevents, List.countP_append, hcount]
    exact hcall.trans hrest

/-- The device side is what the events make of it. -/
theorem dev_eq_replay (h : Replayed s t) {es : List Event} (ht : t.trace = s.trace ++ es) :
    t.dev = (replay s es).dev := by
  obtain ⟨es', ht', hout⟩ := h
  obtain rfl : es = es' := List.append_cancel_left (ht.symm.trans ht')
  exact (outside_eq.mp hout).2.2.2

theorem wakeBoth_actuated (s : State) : Actuated s (wakeBoth s) s.pending s.committed (wakeEvents s.cfg) 0 :=
  ⟨_, _, _, _, wakeBoth_eq s⟩

theorem exec_panicRecover (hidle : s.phase = .idle) :
    exec .panicRecover s = .next (respond .ok 0 (initRun (panicCycles s.cfg.panicWidths (wakeBoth s)))) :=
  congrArg Host.Outcome.next (whenAccepted_idle s _ hidle)

/-- Only the loop transfers words. -/
theorem countP_isSpi_panicEvents (c : Config) (oks : List Bool) :
    (panicEvents c oks).countP isSpi = (panicItemEvents c.strobeDelayMs (panicItems c) oks).countP isSpi := by
  rw [panicEvents, List.countP_append, List.countP_append, show (wakeEvents c).countP isSpi = 0 from rfl,
    show (initEvents c).countP isSpi = 0 from rfl, Nat.zero_add, Nat.add_zero]

/-- The wake and the loop of `panic_recover`. -/
theorem panicCycles_wakeBoth_actuated (s : State) :
    let loop := panicItemEvents s.cfg.strobeDelayMs (panicItems s.cfg) (nextAnswers s (16 * s.cfg.panicWidths.length))
    ∃ p c, Actuated s (panicCycles s.cfg.panicWidths (wakeBoth s)) p c (wakeEvents s.cfg ++ loop)
      (loop.countP isSpi) := by
  have wake := wakeBoth_actuated s
  obtain ⟨p, c, hloop⟩ := (panicRun_panicCycles s.cfg.panicWidths (wakeBoth s)).actuated le_rfl
  rw [wake.cfg, wake.nextAnswers_of_no_draw, ← panicItems_eq] at hloop
  have hact := wake.trans hloop
  rw [Nat.zero_add] at hact
  exact ⟨p, c, hact⟩

/-- Settles O37: the loop emits and draws what `panicItemEvents` says (`PanicRun.actuated`), `init()` writes the rest, and
the device side is what the events make of it (`Replayed`). -/
theorem panicRecoverEndsInInit : Obligations.PanicRecoverEndsInInit := by
  intro s hidle
  dsimp only
  obtain ⟨p, c, hact⟩ := panicCycles_wakeBoth_actuated s
  have hrun := hact.initRun
  rw [List.append_assoc, ← panicEvents, ← countP_isSpi_panicEvents] at hrun
  have hreplayed := ((Replayed.refl s).wakeBoth.panicCycles s.cfg.panicWidths).initRun
  have hdev : (panicCycles s.cfg.panicWidths (wakeBoth s)).dev = _ :=
    (congrArg State.dev hrun).symm.trans (dev_eq_replay hreplayed (congrArg State.trace hrun))
  rw [exec_panicRecover hidle, hrun, hdev]
  rfl

end Panic

/-! ## The commands without a transfer (43_motion_control R191, R197 to R200, R206) -/

/-- Settles O27: `initRun_eq`, in any phase. -/
theorem initResetsTheBlock : Obligations.InitResetsTheBlock := by
  intro s
  show Host.Outcome.next (respond .ok 0 (initRun s)) = _
  rw [initRun_eq]
  rfl

/-- Settles O36: two lines are driven, one after the other (`driveNSleep_eq`). -/
theorem sleepDriversDrivesTwoLines : Obligations.SleepDriversDrivesTwoLines := by
  intro s hidle
  show execSleepDrivers s = _
  rw [execSleepDrivers, whenAccepted_idle s _ hidle, drvSleep, drvSleep, driveNSleep_eq, driveNSleep_eq]
  simp only [List.append_assoc]
  rfl

theorem exec_setPulseWidthMs {s : State} (ms : U32) (hidle : s.phase = .idle) :
    exec (.setPulseWidthMs ms) s =
      .next (if ms < s.cfg.pulseWidthMinMs then respond .invalidParameter 0 s
        else respond .ok 0 (s.setPulseWidth ms)) :=
  congrArg Host.Outcome.next (whenAccepted_idle s _ hidle)

/-- Settles O34: the comparison of 32-bit words is that of their values. -/
theorem setPulseWidthChecksTheMinimum : Obligations.SetPulseWidthChecksTheMinimum := by
  intro s ms hidle
  rw [exec_setPulseWidthMs ms hidle]
  refine ⟨fun hge => ?_, fun hlt => ?_⟩
  · rw [if_neg (by rw [BitVec.lt_def]; omega)]
    rfl
  · rw [if_pos (BitVec.lt_def.mpr hlt)]
    rfl

/-! ## `set_current` (42_presets R177) -/

/-- A preset with a level of `set_current` stored in its valves. -/
def storeLevel (level : U32) (p : Preset) : Preset := withCurrent ((level.extractLsb' 0 3).setWidth 8) p

theorem setGlobalCurrent_of_lt {s : State} {level : U32} (h : level.toNat < 8) :
    setGlobalCurrent level s = (.ok, s.setTable (s.table.map fun x => (x.1, storeLevel level x.2))) :=
  if_neg (by rw [ge_iff_le, BitVec.le_def, not_le]; exact h)

theorem setGlobalCurrent_of_ge {s : State} {level : U32} (h : 8 ≤ level.toNat) :
    setGlobalCurrent level s = (.invalidParameter, s) :=
  if_pos (by rw [ge_iff_le, BitVec.le_def]; exact h)

/-- A level below 8 fits the three bits stored. -/
theorem storedLevel_toNat {level : U32} (h : level.toNat < 8) :
    ((level.extractLsb' 0 3).setWidth 8 : U8).toNat = level.toNat := by
  rw [BitVec.toNat_setWidth, BitVec.extractLsb'_toNat, Nat.shiftRight_zero, Nat.mod_eq_of_lt h,
    Nat.mod_eq_of_lt (by omega)]

/-- Each valve keeps everything but its current. -/
theorem valveGet_storeLevel (level : U32) (p : Preset) (v : ValveId) :
    valveGet (storeLevel level p).valve v =
      { valveGet p.valve v with current := (level.extractLsb' 0 3).setWidth 8 } :=
  valveGet_valveMapAll _ _ _

theorem exec_setCurrent {s : State} (level : U32) (hidle : s.phase = .idle) :
    exec (.setCurrent level) s = .next (respond (setGlobalCurrent level s).1 0 (setGlobalCurrent level s).2) :=
  congrArg Host.Outcome.next (whenAccepted_idle s _ hidle)

/-- Settles O33: the new table is the old one mapped, preset by preset and valve by valve (`valveGet_storeLevel`). -/
theorem setCurrentWritesTheTable : Obligations.SetCurrentWritesTheTable := by
  intro s level hidle
  rw [exec_setCurrent level hidle]
  refine ⟨fun hlt => ⟨s.table.map fun x => (x.1, storeLevel level x.2), ?_, List.length_map _, fun n x y hx hy => ?_⟩,
    fun hge => ?_⟩
  · rw [setGlobalCurrent_of_lt hlt]
    rfl
  · rw [List.getElem?_map, hx, Option.map_some, Option.some.injEq] at hy
    subst hy
    refine ⟨rfl, rfl, fun v => ?_⟩
    rw [valveGet_storeLevel]
    exact ⟨storedLevel_toNat hlt, rfl, rfl⟩
  · rw [setGlobalCurrent_of_ge hge]
    rfl

/-! ## `toggle_pump` (43_motion_control R197) -/

theorem exec_togglePump {s : State} (hidle : s.phase = .idle) :
    exec .togglePump s = .next { s with
      relay := !s.relay
      mirror := { s.mirror with pump := !s.relay }
      mode := modeWithPump s.cfg s.mode (!s.relay)
      trace := s.trace ++ [.relay (!s.relay)]
      results := s.results ++ [.response .ok 0] } :=
  congrArg Host.Outcome.next (whenAccepted_idle s _ hidle)

theorem modeWithPump_unpaired {c : Config} {m : Mode} (h : modePaired c m = false) (b : Bool) :
    modeWithPump c m b = m :=
  if_neg (by rw [h]; decide)

/-- Settles O31: an unpaired mode is kept, a paired one becomes the member of `modeWithPump_paired`. -/
theorem togglePumpFlipsThePump : Obligations.TogglePumpFlipsThePump := by
  intro s hidle hvalid
  refine ⟨modeWithPump s.cfg s.mode (!s.relay), exec_togglePump hidle,
    fun hunpaired => modeWithPump_unpaired hunpaired _, fun hpaired => ?_⟩
  obtain ⟨hmember, hcode, hsame⟩ := modeWithPump_paired hvalid hpaired (!s.relay)
  obtain ⟨hbit0, hrest⟩ := getLsbD_withBit0 (modeCode s.cfg s.mode) (!s.relay)
  rw [hcode]
  exact ⟨hmember, hbit0, hrest, hsame⟩

end Sys2Proof.Proofs.Motion

end

/-! Proofs of the encoding and codec statements: decoding what was encoded (30_encoding, sections 1 to 5), the round trips
of 40_codec R123, and the internal acts of the codec run alone. -/

section

namespace Sys2Proof.Proofs.RoundTrip

open Machine Laws

/-! ## Decoding what was encoded -/

theorem decode_encode_encodeChA (f : ChannelField) : decode (encode (.encodeChA f)) = .ok (.encodeChA f) := by
  obtain ⟨_, hw, hmask⟩ := MatchesRow.encodeChA f
  cases hw
  exact (if_pos hmask).trans (by rw [lowSlot_wordOf])

theorem decode_encode_encodeChB (f : ChannelField) : decode (encode (.encodeChB f)) = .ok (.encodeChB f) := by
  obtain ⟨_, hw, hmask⟩ := MatchesRow.encodeChB f
  cases hw
  exact (if_pos hmask).trans (by rw [highSlot_wordOf])

theorem decode_encode_encodeChC (f : ChannelField) : decode (encode (.encodeChC f)) = .ok (.encodeChC f) := by
  obtain ⟨_, hw, hmask⟩ := MatchesRow.encodeChC f
  cases hw
  exact (if_pos hmask).trans (by rw [lowSlot_wordOf])

theorem decode_encode_encodeChD (f : ChannelField) : decode (encode (.encodeChD f)) = .ok (.encodeChD f) := by
  obtain ⟨_, hw, hmask⟩ := MatchesRow.encodeChD f
  cases hw
  exact (if_pos hmask).trans (by rw [highSlot_wordOf])

theorem decode_encode_valveOverride (v : ValveId) (direction : Bool) :
    decode (encode (.valveOverride v direction)) = .ok (.valveOverride v direction) := by
  have hbit := overrideOperand_direction v direction
  simp only [encode, decode, decodeCommand, frameHigh_frameOf, frameLow_frameOf]
  exact (if_pos (overrideOperand_mustBeZero v direction)).trans (by rw [overrideOperand_index, hbit])

/-- Settles O1, row by row: a command's frame gives back its opcode and operand (`frameHigh_frameOf`, `frameLow_frameOf`),
a word its slots, and a contribution has its row's mask (`MatchesRow`). -/
theorem decodeOfEncodeIsTheInstruction : Obligations.DecodeOfEncodeIsTheInstruction := by
  intro i hwf
  cases i with
  | init | togglePump | getCurrent | getPulseWidthMs | getMode | panicRecover | sleepDrivers => rfl
  | setMode operand | setCurrent operand | setPulseWidthMs operand => simp [encode, decode, decodeCommand]
  | getValveDirection index =>
    have hle : index ≤ 7#32 := of_decide_eq_true hwf
    simp [encode, decode, decodeCommand, hle]
  | valveOverride v direction => exact decode_encode_valveOverride v direction
  | wordAb ic b a | wordCd ic d c => simp [encode, decode, decodeWord]
  | encodeChA f => exact decode_encode_encodeChA f
  | encodeChB f => exact decode_encode_encodeChB f
  | encodeChC f => exact decode_encode_encodeChC f
  | encodeChD f => exact decode_encode_encodeChD f
  | sub6 f => exact congrArg (fun g => Except.ok (Instr.sub6 g)) (ofSub6_sub6 f)
  | rsp40 r v => simp [encode, decode, decodeResponse, ofCode_code]

/-- Settles O6: each frame is closed, and the decoder computes. -/
theorem writtenOutWordsDecode : Obligations.WrittenOutWordsDecode := by
  unfold Obligations.WrittenOutWordsDecode
  decide

/-! ## The round trips of the codec (40_codec R123) -/

/-- What `encode` makes of a field, in the layout of a word. -/
theorem encodeField_decodeField_wordOf (ch : ChannelId) (op : BitVec 4) (h l : ChannelField) :
    encodeField ch (decodeField ch (wordOf op h l)) =
      match ch with
      | .chA => wordOf 0 .zero l
      | .chB => wordOf 0 h .zero
      | .chC => wordOf 1 .zero l
      | .chD => wordOf 1 h .zero := by
  cases ch <;>
    simp only [decodeField_low, decodeField_high, lowSlot_wordOf, highSlot_wordOf, encodeField_chA, encodeField_chB,
      encodeField_chC, encodeField_chD]

/-- Keeping the low slot alone. -/
theorem keep_low (op : BitVec 4) (h l : ChannelField) : wordOf op h l &&& 0x003F#16 = wordOf 0 .zero l := by
  apply BitVec.eq_of_getLsbD_eq
  intro i hi
  rw [BitVec.getLsbD_and, getLsbD_wordOf, getLsbD_wordOf, sub6_zero]
  interval_cases i <;> simp

/-- Keeping the high slot alone. -/
theorem keep_high (op : BitVec 4) (h l : ChannelField) : wordOf op h l &&& 0x0FC0#16 = wordOf 0 h .zero := by
  apply BitVec.eq_of_getLsbD_eq
  intro i hi
  rw [BitVec.getLsbD_and, getLsbD_wordOf, getLsbD_wordOf, sub6_zero]
  interval_cases i <;> simp

theorem wordOf_zero_or_bit12 (h l : ChannelField) : wordOf 0 h l ||| 0x1000#16 = wordOf 1 h l := by
  rw [show (0x1000#16) = wordOf 1 .zero .zero by decide]
  simp only [wordOf, sub6_zero]
  rw [BitVec.or_append, BitVec.or_append]
  simp

/-- Settles O9: any word is `wordOf` of its parts (`wordOf_slots`), and on such a word both sides keep one slot. -/
theorem codecRoundTrip : Obligations.CodecRoundTrip := by
  refine ⟨decodeField_encodeField, fun ch w => ?_, fun ch f g hfg => ?_⟩
  · obtain ⟨op, h, l, rfl⟩ : ∃ op h l, wordOf op h l = w := ⟨_, _, _, wordOf_slots w⟩
    rw [encodeField_decodeField_wordOf]
    cases ch <;> simp only [slotMask, keep_low, keep_high, wordOf_zero_or_bit12, BitVec.or_zero]
  · rw [← decodeField_encodeField ch f, hfg, decodeField_encodeField]

/-! ## The codec's acts run alone -/

theorem next_answer_word {w w' : U16} (h : w = w') (s : State) :
    (Host.Outcome.next (s.answer (.word w)) : Host.Outcome State Fault Refusal) =
      .next { s with results := s.results ++ [.word w'] } := by
  rw [h]
  rfl

/-- Settles O12: `encode` run alone answers `encodeField`, which is a word with one slot zero. -/
theorem encodeActsAnswerTheWord : Obligations.EncodeActsAnswerTheWord := fun f s =>
  ⟨next_answer_word ((encodeField_chA f).trans (Encoding.wordOf_zero_high 0 f)) s,
    next_answer_word ((encodeField_chB f).trans (Encoding.wordOf_zero_low 0 f)) s,
    next_answer_word ((encodeField_chC f).trans (Encoding.wordOf_zero_high 1 f)) s,
    next_answer_word ((encodeField_chD f).trans (Encoding.wordOf_zero_low 1 f)) s⟩

/-- Settles O13: the decoder lays six bits out as `ChannelField.ofSub6` does, and the act answers its field. -/
theorem subFieldActAnswersTheField : Obligations.SubFieldActAnswersTheField := fun _ _ => ⟨rfl, rfl⟩

/-- Settles O14: a frame gives back its two parts. -/
theorem responseActPlacesTheFrame : Obligations.ResponseActPlacesTheFrame :=
  ⟨fun r v _ => ⟨rfl, frameHigh_frameOf r.code v, frameLow_frameOf r.code v⟩, rfl, rfl, rfl, rfl⟩

end Sys2Proof.Proofs.RoundTrip

end

/-! Proofs of the device and driver statements: how an IC reacts (20_memory R75, R76), the lines the driver drives
(41_driver R145 to R147), and what a transfer, a call and a phase leave in the device (10_state R24). -/

section

namespace Sys2Proof.Proofs.Device

open Machine Safety Laws

/-! ## Reactions (20_memory R75) -/

section React

variable (d : DevIc) {l : Lines} (ic : IcId)

theorem react_spi_shifted (hi lo : U8) (hcs : l.cs = true) (hsleep : l.nSleep = true) (hreset : l.nReset = true) :
    d.react l true (.spi ic hi lo true) = { d with shift := .known (hi ++ lo) } :=
  if_pos (by rw [hcs, hsleep, hreset]; rfl)

theorem react_spi_lost {on ok : Bool} (hi lo : U8)
    (h : ok = false ∨ l.cs = false ∨ l.nSleep = false ∨ l.nReset = false ∨ on = false) :
    d.react l on (.spi ic hi lo ok) = { d with shift := .unknown } := by
  refine if_neg ?_
  simp only [Bool.and_eq_true, not_and_or, Bool.not_eq_true]
  tauto

theorem react_strobe_ignored (on : Bool) (h : l.strobe = true ∨ l.nSleep = false ∨ l.nReset = false) :
    d.react l on (.pin ic .strobe true) = d := by
  refine if_pos ?_
  rcases h with h | h | h <;> simp [h]

theorem react_strobe_latched (on : Bool) (hstrobe : l.strobe = false) (hsleep : l.nSleep = true)
    (hreset : l.nReset = true) : d.react l on (.pin ic .strobe true) = d.latch :=
  if_neg (by rw [hstrobe, hsleep, hreset]; decide)

end React

theorem latch_of_known {d : DevIc} {w : U16} (h : d.shift = .known w) (hreserved : w.extractLsb' 13 3 = 0#3) :
    d.latch = if w.getLsbD 12 then { d with regCD := .known (w.extractLsb' 0 12) }
      else { d with regAB := .known (w.extractLsb' 0 12) } := by
  unfold DevIc.latch
  rw [h]
  exact if_neg (not_not_intro hreserved)

theorem latch_of_unusable {d : DevIc}
    (h : d.shift = .unknown ∨ ∃ w : U16, d.shift = .known w ∧ w.extractLsb' 13 3 ≠ 0#3) : d.latch = d.lose := by
  unfold DevIc.latch
  rcases h with h | ⟨w, h, hreserved⟩ <;> rw [h]
  exact if_pos hreserved

theorem icGet_devAfter_of_ne {e : Event} {s : State} {ic : IcId} (h : eventIc e ≠ some ic) :
    icGet (devAfter e s) ic = icGet s.dev ic := by
  unfold devAfter
  cases hic : eventIc e with
  | none => rfl
  | some ic' => exact icGet_icSet_ne _ _ (fun heq => h (heq ▸ hic))

/-- Settles O15: one lemma per kind of event; a rising strobe at a listening IC is `DevIc.latch`. -/
theorem deviceReactsToEvents : Obligations.DeviceReactsToEvents := by
  refine ⟨fun d l ic hi lo => react_spi_shifted d ic hi lo, fun d l on ok ic hi lo => react_spi_lost d ic hi lo,
    fun d l on ic => react_strobe_ignored d ic on, fun d l on ic hstrobe hsleep hreset => ?_,
    fun d l on ic => ⟨rfl, rfl, rfl, rfl, fun level => ⟨rfl, rfl⟩⟩, fun e s ic => icGet_devAfter_of_ne⟩
  rw [react_strobe_latched d ic on hstrobe hsleep hreset]
  refine ⟨fun w hw hreserved hbit => ?_, fun w hw hreserved hbit => ?_, latch_of_unusable⟩
  · rw [latch_of_known hw hreserved, hbit]
    rfl
  · rw [latch_of_known hw hreserved, hbit]
    rfl

/-! ## Outputs (20_memory R76) -/

/-- What a bridge does with a field in its slot. -/
def outputOf (f : ChannelField) : BridgeOutput := if f.enable then .driven f.phase f.current f.decay else .off

/-- The two slots of register AB. -/
theorem slot_of_regAB {d : DevIc} {high low : ChannelField} (h : d.regAB = .known (high.sub6 ++ low.sub6)) :
    d.slot .chA = .known low.sub6 ∧ d.slot .chB = .known high.sub6 := by
  simp only [DevIc.slot, h, payload_low, payload_high, and_self]

/-- The two slots of register CD. -/
theorem slot_of_regCD {d : DevIc} {high low : ChannelField} (h : d.regCD = .known (high.sub6 ++ low.sub6)) :
    d.slot .chC = .known low.sub6 ∧ d.slot .chD = .known high.sub6 := by
  simp only [DevIc.slot, h, payload_low, payload_high, and_self]

section Output

variable {s : State} {ic : IcId} (hsleep : (icGet s.pin ic).nSleep = true) (hreset : (icGet s.pin ic).nReset = true)

include hsleep hreset

theorem bridgeOutput_of_slot_known {ch : ChannelId} {f : ChannelField}
    (h : (icGet s.dev ic).slot ch = .known f.sub6) : bridgeOutput s ic ch = outputOf f := by
  obtain ⟨henable, hphase, hcurrent, hdecay⟩ := sub6_bits f
  rw [bridgeOutput_awake s ic ch hsleep hreset, h]
  dsimp only
  rw [henable, hphase, hcurrent, hdecay, outputOf]

theorem bridgeOutput_of_slot_unknown {ch : ChannelId} (h : (icGet s.dev ic).slot ch = .unknown) :
    bridgeOutput s ic ch = .unknown := by
  rw [bridgeOutput_awake s ic ch hsleep hreset, h]

end Output

/-- Settles O16: off is `bridgeOutput_off`; awake, the output is that of the slot. -/
theorem bridgeOutputsFollowTheSlot : Obligations.BridgeOutputsFollowTheSlot := by
  refine fun s ic => ⟨fun h ch => bridgeOutput_off s ic ch h, fun hsleep hreset =>
    ⟨fun hAB => ?_, fun hCD => ?_, fun high low hAB => ?_, fun high low hCD => ?_⟩⟩
  · constructor <;> exact bridgeOutput_of_slot_unknown hsleep hreset (by simp only [DevIc.slot, hAB])
  · constructor <;> exact bridgeOutput_of_slot_unknown hsleep hreset (by simp only [DevIc.slot, hCD])
  · exact ⟨bridgeOutput_of_slot_known hsleep hreset (slot_of_regAB hAB).1,
      bridgeOutput_of_slot_known hsleep hreset (slot_of_regAB hAB).2⟩
  · exact ⟨bridgeOutput_of_slot_known hsleep hreset (slot_of_regCD hCD).1,
      bridgeOutput_of_slot_known hsleep hreset (slot_of_regCD hCD).2⟩

/-- Settles O20: both are one drive of `nSLEEP`, and asleep nothing is driven (`bridgeOutput_off`). -/
theorem driverSleepAndWake : Obligations.DriverSleepAndWake := by
  refine fun ic s => ⟨driveNSleep_eq s ic false, driveNSleep_eq s ic true, fun ch => bridgeOutput_off _ ic ch (.inl ?_)⟩
  rw [drvSleep, driveNSleep_eq, icGet_icSet_same]

/-- Settles O21: `drvReset_eq`, whose events the statement writes out. -/
theorem driverReset : Obligations.DriverReset := fun ic s => drvReset_eq s ic

/-! ## One word run alone (41_driver R140) -/

/-- `xferAlone_eq` with the device side that the case at hand leaves. -/
theorem next_xferAlone_of_dev {s : State} {ic : IcId} {w : U16} {d : DevIc}
    (h : devAfterXfer (icGet s.dev ic) (icGet s.pin ic) s.spiOn w (drawnOk s) = d) :
    (Host.Outcome.next (xferAlone ic w s) : Host.Outcome State Fault Refusal) = .next { s with
      pin := icSet s.pin ic (linesAfterXfer (icGet s.pin ic))
      dev := icSet s.dev ic d
      trace := s.trace ++ xferEvents s.cfg.strobeDelayMs ic w (drawnOk s)
      spiAnswers := s.spiAnswers.tail
      draws := s.draws + 1
      results := s.results ++ [.transfer (drawnOk s)] } := by
  rw [xferAlone_eq, h]

theorem exec_wordAb (ic : IcId) (b a : ChannelField) (s : State) :
    exec (.wordAb ic b a) s = .next (xferAlone ic (wordOf 0 b a) s) :=
  congrArg (fun w => Host.Outcome.next (xferAlone ic w s)) (or_encodeField_AB b a)

theorem exec_wordCd (ic : IcId) (d c : ChannelField) (s : State) :
    exec (.wordCd ic d c) s = .next (xferAlone ic (wordOf 1 d c) s) :=
  congrArg (fun w => Host.Outcome.next (xferAlone ic w s)) (or_encodeField_CD d c)

/-- A word with opcode 0 at an IC that listens. -/
theorem devAfterXfer_wordOf_zero (d : DevIc) {l : Lines} (high low : ChannelField) (hsleep : l.nSleep = true)
    (hreset : l.nReset = true) (hstrobe : l.strobe = false) :
    devAfterXfer d l true (wordOf 0 high low) true =
      { d with shift := .known (wordOf 0 high low), regAB := .known (high.sub6 ++ low.sub6) } := by
  rw [devAfterXfer_latched d l _ hsleep hreset hstrobe (by rw [reserved_wordOf]; decide), bit12_wordOf, payload_wordOf]
  rfl

/-- A word with opcode 1 at an IC that listens. -/
theorem devAfterXfer_wordOf_one (d : DevIc) {l : Lines} (high low : ChannelField) (hsleep : l.nSleep = true)
    (hreset : l.nReset = true) (hstrobe : l.strobe = false) :
    devAfterXfer d l true (wordOf 1 high low) true =
      { d with shift := .known (wordOf 1 high low), regCD := .known (high.sub6 ++ low.sub6) } := by
  rw [devAfterXfer_latched d l _ hsleep hreset hstrobe (by rw [reserved_wordOf]; decide), bit12_wordOf, payload_wordOf]
  rfl

/-- Settles O18: both acts are one transfer of a `wordOf`; the cases are those of `devAfterXfer`. -/
theorem wordActsReachTheirRegister : Obligations.WordActsReachTheirRegister := by
  intro ic high low s
  dsimp only
  rw [exec_wordAb, exec_wordCd]
  refine ⟨fun hoff => ⟨next_xferAlone_of_dev ?_, next_xferAlone_of_dev ?_⟩,
    fun hsleep hreset hstrobe => ⟨next_xferAlone_of_dev ?_, next_xferAlone_of_dev ?_⟩, fun hsleep hreset hstrobe =>
      ⟨fun hspi hok => ⟨next_xferAlone_of_dev ?_, next_xferAlone_of_dev ?_⟩,
        fun hlost => ⟨next_xferAlone_of_dev ?_, next_xferAlone_of_dev ?_⟩⟩⟩
  · exact devAfterXfer_off _ _ _ _ _ hoff
  · exact devAfterXfer_off _ _ _ _ _ hoff
  · exact devAfterXfer_noEdge _ _ _ _ _ hsleep hreset hstrobe
  · exact devAfterXfer_noEdge _ _ _ _ _ hsleep hreset hstrobe
  · rw [hspi, hok]
    exact devAfterXfer_wordOf_zero _ high low hsleep hreset hstrobe
  · rw [hspi, hok]
    exact devAfterXfer_wordOf_one _ high low hsleep hreset hstrobe
  · exact devAfterXfer_lost _ _ _ _ _ hsleep hreset hstrobe hlost
  · exact devAfterXfer_lost _ _ _ _ _ hsleep hreset hstrobe hlost

/-! ## What a call leaves in the device (10_state R24) -/

/-- An IC that receives and latches: awake, out of reset, its strobe down, SPI enabled (20_memory R75). -/
def Listens (s : State) (ic : IcId) : Prop :=
  (icGet s.pin ic).nSleep = true ∧ (icGet s.pin ic).nReset = true ∧ (icGet s.pin ic).strobe = false ∧ s.spiOn = true

/-- An IC that holds the two words of four fields. -/
def holding (f : ByChannel ChannelField) : DevIc :=
  ⟨.known (wordOf 1 f.chD f.chC), .known (f.chB.sub6 ++ f.chA.sub6), .known (f.chD.sub6 ++ f.chC.sub6)⟩

/-- An all-channel call leaves the lines of its IC as its transfers do, one or two. -/
theorem drvSetAllChannels_pin (s : State) (ic : IcId) (f : ByChannel ChannelField) :
    (drvSetAllChannels ic f s).2.pin = icSet s.pin ic (linesAfterXfer (icGet s.pin ic)) := by
  cases hAB : drawnOk s with
  | false => rw [drvSetAllChannels_first s ic f hAB]
  | true => rw [drvSetAllChannels_second s ic f _ hAB rfl]

/-- The other IC does not react to an all-channel call. -/
theorem drvSetAllChannels_dev_ne (s : State) {ic ic' : IcId} (f : ByChannel ChannelField) (h : ic' ≠ ic) :
    icGet (drvSetAllChannels ic f s).2.dev ic' = icGet s.dev ic' := by
  cases hAB : drawnOk s with
  | false =>
    rw [drvSetAllChannels_first s ic f hAB]
    exact icGet_icSet_ne _ _ h
  | true =>
    rw [drvSetAllChannels_second s ic f _ hAB rfl]
    exact icGet_icSet_ne _ _ h

theorem Listens.drvSetAllChannels {s : State} {ic : IcId} (h : Listens s ic) (ic' : IcId)
    (f : ByChannel ChannelField) : Listens (drvSetAllChannels ic' f s).2 ic := by
  unfold Listens
  rw [drvSetAllChannels_pin, drvSetAllChannels_spiOn]
  by_cases heq : ic = ic'
  · subst heq
    rw [icGet_icSet_same]
    exact ⟨h.1, h.2.1, rfl, h.2.2.2⟩
  · rw [icGet_icSet_ne _ _ heq]
    exact h

/-- A call answers `Ok` only when both its transfers went through. -/
theorem drawnOk_of_drvSetAllChannels_ok {s : State} {ic : IcId} {f : ByChannel ChannelField}
    (h : (drvSetAllChannels ic f s).1 = .ok) : drawnOk s = true ∧ drawnOk (afterDraw s) = true := by
  cases hAB : drawnOk s with
  | false =>
    rw [drvSetAllChannels_first s ic f hAB] at h
    cases h
  | true =>
    cases hCD : drawnOk (afterDraw s) with
    | false =>
      rw [drvSetAllChannels_second s ic f _ hAB hCD] at h
      cases h
    | true => exact ⟨rfl, rfl⟩

/-- After a successful all-channel call a listening IC holds both words, and so does `committed`. -/
theorem drvSetAllChannels_ok_holding {s : State} {ic : IcId} {f : ByChannel ChannelField} (hl : Listens s ic)
    (h : (drvSetAllChannels ic f s).1 = .ok) :
    icGet (drvSetAllChannels ic f s).2.dev ic = holding f ∧
      icGet (drvSetAllChannels ic f s).2.committed ic = freshSet f := by
  obtain ⟨hAB, hCD⟩ := drawnOk_of_drvSetAllChannels_ok h
  obtain ⟨hsleep, hreset, hstrobe, hspi⟩ := hl
  rw [drvSetAllChannels_second s ic f true hAB hCD]
  refine ⟨?_, icGet_icSet_same _ _ _⟩
  dsimp only
  rw [icGet_icSet_same, assemble_eq, hspi, devAfterXfer_wordOf_zero _ _ _ hsleep hreset hstrobe,
    devAfterXfer_wordOf_one _ _ _ (l := linesAfterXfer (icGet s.pin ic)) hsleep hreset rfl]
  rfl

/-- The payload of the AB word and of the CD word of a fresh set. -/
theorem payload_freshSet (f : ByChannel ChannelField) :
    (freshSet f).wordAB.extractLsb' 0 12 = f.chB.sub6 ++ f.chA.sub6 ∧
      (freshSet f).wordCD.extractLsb' 0 12 = f.chD.sub6 ++ f.chC.sub6 := by
  rw [freshSet, assemble_eq]
  exact ⟨payload_wordOf 0 f.chB f.chA, payload_wordOf 1 f.chD f.chC⟩

/-! ### Sets whose words are those of their fields (10_state R22) -/

theorem wordsMatch_iff (c : IcCommandSet) :
    wordsMatch c ↔ c.wordAB = wordOf 0 c.field.chB c.field.chA ∧ c.wordCD = wordOf 1 c.field.chD c.field.chC := by
  rw [wordsMatch, assemble_eq, Prod.mk.injEq]

theorem wordsMatch_zero : wordsMatch .zero := by
  rw [wordsMatch_iff]
  decide

theorem wordsMatch_freshSet (f : ByChannel ChannelField) : wordsMatch (freshSet f) := rfl

theorem wordsMatch_commitAB {c : IcCommandSet} (h : wordsMatch c) (f : ByChannel ChannelField) :
    wordsMatch (commitAB c f) := by
  rw [wordsMatch_iff] at h ⊢
  exact ⟨congrArg Prod.fst (assemble_eq f), h.2⟩

theorem wordsMatch_commitCD {c : IcCommandSet} (h : wordsMatch c) (f : ByChannel ChannelField) :
    wordsMatch (commitCD c f) := by
  rw [wordsMatch_iff] at h ⊢
  exact ⟨h.1, congrArg Prod.snd (assemble_eq f)⟩

theorem wordsMatch_updateChannel {c : IcCommandSet} (h : wordsMatch c) (ch : ChannelId) (f : ChannelField) :
    wordsMatch (updateChannel c ch f) := by
  rw [wordsMatch_iff] at h ⊢
  obtain ⟨hAB, hCD⟩ := h
  cases ch <;> simp only [updateChannel, chSet, hAB, hCD, merge_wordOf, true_and, and_true] <;> rfl

/-- The word sent for a channel of such a set: opcode 0 for A and B, 1 for C and D. -/
theorem wordHolding_of_wordsMatch {c : IcCommandSet} (h : wordsMatch c) (ch : ChannelId) :
    wordHolding c ch = match ch with
      | .chA | .chB => wordOf 0 c.field.chB c.field.chA
      | .chC | .chD => wordOf 1 c.field.chD c.field.chC := by
  obtain ⟨hAB, hCD⟩ := (wordsMatch_iff c).mp h
  cases ch <;> assumption

/-- After a successful single-channel call the attempted set is committed, and the device is as its word left it. -/
theorem drvSetSingleChannel_ok {s : State} {ic : IcId} {ch : ChannelId} {f : ChannelField}
    (h : (drvSetSingleChannel ic ch f s).1 = .ok) :
    let c := updateChannel (icGet s.committed ic) ch f
    icGet (drvSetSingleChannel ic ch f s).2.committed ic = c ∧
      icGet (drvSetSingleChannel ic ch f s).2.dev ic =
        devAfterXfer (icGet s.dev ic) (icGet s.pin ic) s.spiOn (wordHolding c ch) true := by
  dsimp only
  rw [Driver.drvSetSingleChannel_written] at h ⊢
  cases hok : drawnOk s with
  | false =>
    rw [hok] at h
    cases h
  | true =>
    refine ⟨icGet_icSet_same _ _ _, ?_⟩
    dsimp only
    rw [Driver.icGet_xferWord_dev, hok]

/-- Settles O24: `drvSetAllChannels_ok_holding`, and for a single channel the one word sent (`drvSetSingleChannel_ok`),
which has its opcode because the words of `committed` are those of its fields. -/
theorem committedMatchesTheDevice : Obligations.CommittedMatchesTheDevice := by
  refine fun ic s hsleep hreset hstrobe hspi => ⟨fun f h => ?_, fun ch f hmatch h => ?_⟩
  · obtain ⟨hdev, hcommitted⟩ := drvSetAllChannels_ok_holding ⟨hsleep, hreset, hstrobe, hspi⟩ h
    obtain ⟨hAB, hCD⟩ := payload_freshSet f
    dsimp only
    rw [hdev, hcommitted, hAB, hCD]
    exact ⟨rfl, rfl⟩
  · obtain ⟨hcommitted, hdev⟩ := drvSetSingleChannel_ok h
    have hwords := wordsMatch_updateChannel hmatch ch f
    obtain ⟨hAB, hCD⟩ := (wordsMatch_iff _).mp hwords
    dsimp only
    rw [hcommitted, hdev, hspi, wordHolding_of_wordsMatch hwords, hAB, hCD, payload_wordOf, payload_wordOf]
    cases ch <;> dsimp only
    case chA | chB =>
      rw [devAfterXfer_wordOf_zero _ _ _ hsleep hreset hstrobe]
      exact ⟨rfl, rfl⟩
    case chC | chD =>
      rw [devAfterXfer_wordOf_one _ _ _ hsleep hreset hstrobe]
      exact ⟨rfl, rfl⟩

/-! ## What a phase leaves in the device (43_motion_control R192) -/

/-- The output of each channel of an IC that holds the words of four fields. -/
theorem bridgeOutput_of_holding {s : State} {ic : IcId} {f : ByChannel ChannelField} (hl : Listens s ic)
    (h : icGet s.dev ic = holding f) (ch : ChannelId) : bridgeOutput s ic ch = outputOf (chGet f ch) := by
  obtain ⟨hsleep, hreset, -, -⟩ := hl
  have hAB := slot_of_regAB (d := icGet s.dev ic) (high := f.chB) (low := f.chA) (by rw [h]; rfl)
  have hCD := slot_of_regCD (d := icGet s.dev ic) (high := f.chD) (low := f.chC) (by rw [h]; rfl)
  cases ch with
  | chA => exact bridgeOutput_of_slot_known hsleep hreset hAB.1
  | chB => exact bridgeOutput_of_slot_known hsleep hreset hAB.2
  | chC => exact bridgeOutput_of_slot_known hsleep hreset hCD.1
  | chD => exact bridgeOutput_of_slot_known hsleep hreset hCD.2

/-- IC_A's call, then IC_B's, both with success, on ICs that listen: each holds its fields. -/
theorem holding_of_two_calls {s : State} {F : FieldSets} (hl : ∀ ic, Listens s ic)
    (hA : (drvSetAllChannels .icA F.icA s).1 = .ok)
    (hB : (drvSetAllChannels .icB F.icB (drvSetAllChannels .icA F.icA s).2).1 = .ok) :
    let t := (drvSetAllChannels .icB F.icB (drvSetAllChannels .icA F.icA s).2).2
    ∀ ic, Listens t ic ∧ icGet t.dev ic = holding (icGet F ic) := by
  intro t ic
  refine ⟨((hl ic).drvSetAllChannels .icA F.icA).drvSetAllChannels .icB F.icB, ?_⟩
  cases ic with
  | icA =>
    rw [drvSetAllChannels_dev_ne _ _ (by decide)]
    exact (drvSetAllChannels_ok_holding (hl .icA) hA).1
  | icB => exact (drvSetAllChannels_ok_holding ((hl .icB).drvSetAllChannels .icA F.icA) hB).1

/-- Settles O51: a phase that answers `Ok` is two calls that do (`holding_of_two_calls`). -/
theorem phaseDrivesItsFields : Obligations.PhaseDrivesItsFields := by
  intro F s hlines hspi hok ic ch
  have hl : ∀ ic, Listens s ic := fun ic =>
    have ⟨hsleep, hreset, hstrobe⟩ := hlines ic
    ⟨hsleep, hreset, hstrobe, hspi⟩
  rw [both_eq] at hok ⊢
  split at hok
  next hA =>
    obtain ⟨hawake, hdev⟩ := holding_of_two_calls hl hA hok ic
    rw [if_pos hA]
    exact bridgeOutput_of_holding hawake hdev ch
  next hA => exact absurd hok hA

end Sys2Proof.Proofs.Device

end

/-! Proofs of the statements on one step: what `step` runs (00_scope R14, 30_encoding R104), what every instruction can do,
said once, and the commands that transfer nothing. -/

section

namespace Sys2Proof.Proofs.Step

open Machine Safety Laws

/-! ## The frame a step takes -/

/-- Settles O4: `step` hands the decoded instruction to `exec`, with the frame off the port. -/
theorem stepRunsTheDecodedInstruction : Obligations.StepRunsTheDecodedInstruction :=
  fun _ _ _ _ hbox hdecode => Encoding.step_of_decode_ok hbox hdecode

theorem step_of_decode_error {s : State} {f : Frame} {rest : List Frame} {why : Reject} (hbox : s.inbox = f :: rest)
    (hdecode : decode f = .error why) : step s = rejectFrame f why (s.setInbox rest) := by
  simp only [step, hbox, hdecode]

/-- The mask of 30_encoding R96 leaves the reserved bits. -/
theorem reservedBits_ne_zero {w : U16} (h : w &&& 0xE000#16 ≠ 0#16) : w.extractLsb' 13 3 ≠ 0#3 := by
  refine fun hbits => h ?_
  have hopcode : (w.extractLsb' 12 4).extractLsb' 1 3 = 0#3 := by
    rw [← reserved_wordOf _ (highSlot w) (lowSlot w), wordOf_slots, hbits]
  have hcases : ∀ op : BitVec 4, op.extractLsb' 1 3 = 0#3 → op = 0#4 ∨ op = 1#4 := by decide
  exact Encoding.reservedBits_eq_zero rfl (hcases _ hopcode)

/-- A reserved word is shifted in like any other, and the rising strobe loses both registers. -/
theorem devAfterXfer_of_reserved (d : DevIc) (l : Lines) (on ok : Bool) {w : U16} (h : w.extractLsb' 13 3 ≠ 0#3) :
    devAfterXfer d l on w ok =
      { shift := if ok && (l.nSleep && l.nReset) && on then .known w else .unknown
        regAB := if l.nSleep && l.nReset && !l.strobe then .unknown else d.regAB
        regCD := if l.nSleep && l.nReset && !l.strobe then .unknown else d.regCD } := by
  obtain ⟨cs, strobe, nReset, nSleep⟩ := l
  cases strobe <;> cases nReset <;> cases nSleep <;> cases ok <;> cases on <;>
    simp [devAfterXfer, DevIc.latch, DevIc.lose, h]

/-- Settles O5: `step` by the frame that waits; a reserved word is `devAfterXfer_of_reserved`. -/
theorem stepWithoutInstruction : Obligations.StepWithoutInstruction := by
  refine ⟨fun s hbox => ?_, fun s ic w rest hbox hreserved => ?_, fun s ch w rest why hbox hdecode => ?_,
    fun s w rest hbox hcode => ?_⟩
  · simp only [step, hbox]
  · rw [step_of_decode_error hbox (Encoding.decode_word16_reserved ic hreserved)]
    exact Device.next_xferAlone_of_dev
      (devAfterXfer_of_reserved _ _ s.spiOn (drawnOk s) (reservedBits_ne_zero hreserved))
  · exact step_of_decode_error hbox hdecode
  · have hnone : Result.ofCode (frameHigh w) = none := by
      have hne (c : U8) (hc : c.toNat ≤ 3) : frameHigh w ≠ c := fun heq => absurd (heq ▸ hc) (by omega)
      simp [Result.ofCode, hne]
    have hdecode : decode (.rsp40 w) = .error .unnamedResult := by simp only [decode, decodeResponse, hnone]
    exact step_of_decode_error hbox hdecode

/-! ## What every instruction can do -/

theorem next_whenAccepted_idle {s : State} (hidle : s.phase = .idle) (run : State → State) :
    (Host.Outcome.next (whenAccepted s run) : Host.Outcome State Fault Refusal) = .next (run s) :=
  congrArg _ (whenAccepted_idle s run hidle)

theorem next_whenAccepted_refused {s : State} (hphase : s.phase ≠ .idle) (run : State → State) :
    (Host.Outcome.next (whenAccepted s run) : Host.Outcome State Fault Refusal) = .next (refuse s) :=
  congrArg _ (whenAccepted_refused s run hphase)

/-- Settles O40: every command but `init` asks `whenAccepted` first. -/
theorem commandsRefusedOutsideIdle : Obligations.CommandsRefusedOutsideIdle := by
  intro i s hcommand hinit hphase
  cases i with
  | init => exact absurd rfl hinit
  | setMode | togglePump | setCurrent | getCurrent | setPulseWidthMs | getPulseWidthMs | getMode | getValveDirection
  | panicRecover | sleepDrivers | valveOverride => exact next_whenAccepted_refused hphase _
  | wordAb | wordCd | encodeChA | encodeChB | encodeChC | encodeChD | sub6 | rsp40 => cases hcommand

/-- `t` is what `i` makes of `s`: one constructor per kind of effect, with what the accepting branch has checked. An
instruction that only answers (a refusal, a getter, an act that transfers nothing) is `answered`. -/
inductive Ran (s : State) : Instr → State → Prop
  | answered (i : Instr) (a : Answer) : Ran s i (s.answer a)
  | init : Ran s .init (respond .ok 0 (initRun s))
  | setMode (code : U32) (e : ModeEntry) (hidle : s.phase = .idle) (he : entryOfCode s.cfg code = some e) :
    Ran s (.setMode code) (setModeRun e.mode s)
  | togglePump (hidle : s.phase = .idle) :
    Ran s .togglePump { s with
      relay := !s.relay
      mirror := { s.mirror with pump := !s.relay }
      mode := modeWithPump s.cfg s.mode (!s.relay)
      trace := s.trace ++ [.relay (!s.relay)]
      results := s.results ++ [.response .ok 0] }
  | setCurrent (level : U32) (hidle : s.phase = .idle) (hlevel : level.toNat < 8) :
    Ran s (.setCurrent level)
      (respond .ok 0 (s.setTable (s.table.map fun x => (x.1, Motion.storeLevel level x.2))))
  | setPulseWidthMs (ms : U32) (hidle : s.phase = .idle) (hmin : s.cfg.pulseWidthMinMs ≤ ms) :
    Ran s (.setPulseWidthMs ms) (respond .ok 0 (s.setPulseWidth ms))
  | panicRecover (hidle : s.phase = .idle) :
    Ran s .panicRecover (respond .ok 0 (initRun (panicCycles s.cfg.panicWidths (wakeBoth s))))
  | sleepDrivers (hidle : s.phase = .idle) :
    Ran s .sleepDrivers { s with
      pin := ⟨{ s.pin.icA with nSleep := false }, { s.pin.icB with nSleep := false }⟩
      trace := s.trace ++ [.pin .icA .nSleep false, .pin .icB .nSleep false]
      results := s.results ++ [.response .ok 0] }
  | valveOverride (v : ValveId) (direction : Bool) (hidle : s.phase = .idle) :
    Ran s (.valveOverride v direction) (overrideRun v direction s)
  | wordAb (ic : IcId) (b a : ChannelField) : Ran s (.wordAb ic b a) (xferAlone ic (wordOf 0 b a) s)
  | wordCd (ic : IcId) (d c : ChannelField) : Ran s (.wordCd ic d c) (xferAlone ic (wordOf 1 d c) s)

theorem exec_getValveDirection {s : State} (index : U32) (hidle : s.phase = .idle) :
    exec (.getValveDirection index) s =
      .next (if index ≤ 7#32 then
        respond .ok ((valveGet s.mirror.valve (valveOfIndex index)).direction.setWidth 32) s else refuse s) :=
  next_whenAccepted_idle hidle _

theorem exec_valveOverride {s : State} (v : ValveId) (direction : Bool) (hidle : s.phase = .idle) :
    exec (.valveOverride v direction) s = .next (overrideRun v direction s) := next_whenAccepted_idle hidle _

/-- A command in `P_IDLE`. -/
theorem exec_ran_of_idle {s : State} (hidle : s.phase = .idle) (i : Instr) (hcommand : isCommand i = true) :
    ∃ t, exec i s = .next t ∧ Ran s i t := by
  cases i with
  | init => exact ⟨_, rfl, .init⟩
  | setMode code =>
    cases he : entryOfCode s.cfg code with
    | none => exact ⟨_, Encoding.exec_setMode_of_no_entry he, .answered _ _⟩
    | some e => exact ⟨_, Motion.exec_setMode_of_entry hidle he, .setMode code e hidle he⟩
  | togglePump => exact ⟨_, Motion.exec_togglePump hidle, .togglePump hidle⟩
  | setCurrent level =>
    rw [Motion.exec_setCurrent level hidle]
    rcases lt_or_ge level.toNat 8 with hlt | hge
    · rw [Motion.setGlobalCurrent_of_lt hlt]
      exact ⟨_, rfl, .setCurrent level hidle hlt⟩
    · rw [Motion.setGlobalCurrent_of_ge hge]
      exact ⟨_, rfl, .answered _ _⟩
  | setPulseWidthMs ms =>
    rw [Motion.exec_setPulseWidthMs ms hidle]
    split
    next => exact ⟨_, rfl, .answered _ _⟩
    next hmin => exact ⟨_, rfl, .setPulseWidthMs ms hidle (BitVec.not_lt.mp hmin)⟩
  | getValveDirection index =>
    rw [exec_getValveDirection index hidle]
    split <;> exact ⟨_, rfl, .answered _ _⟩
  | getCurrent | getPulseWidthMs | getMode => exact ⟨_, next_whenAccepted_idle hidle _, .answered _ _⟩
  | panicRecover => exact ⟨_, next_whenAccepted_idle hidle _, .panicRecover hidle⟩
  | sleepDrivers => exact ⟨_, Motion.sleepDriversDrivesTwoLines s hidle, .sleepDrivers hidle⟩
  | valveOverride v direction => exact ⟨_, next_whenAccepted_idle hidle _, .valveOverride v direction hidle⟩
  | wordAb | wordCd | encodeChA | encodeChB | encodeChC | encodeChD | sub6 | rsp40 => cases hcommand

/-- An internal act, in any phase. -/
theorem exec_ran_of_act (s : State) (i : Instr) (hact : isCommand i = false) :
    ∃ t, exec i s = .next t ∧ Ran s i t := by
  cases i with
  | wordAb ic b a => exact ⟨_, Device.exec_wordAb ic b a s, .wordAb ic b a⟩
  | wordCd ic d c => exact ⟨_, Device.exec_wordCd ic d c s, .wordCd ic d c⟩
  | encodeChA | encodeChB | encodeChC | encodeChD | sub6 | rsp40 => exact ⟨_, rfl, .answered _ _⟩
  | init | setMode | togglePump | setCurrent | getCurrent | setPulseWidthMs | getPulseWidthMs | getMode
  | getValveDirection | panicRecover | sleepDrivers | valveOverride => cases hact

theorem exec_ran (i : Instr) (s : State) : ∃ t, exec i s = .next t ∧ Ran s i t := by
  cases hcommand : isCommand i with
  | false => exact exec_ran_of_act s i hcommand
  | true =>
    by_cases hidle : s.phase = .idle
    · exact exec_ran_of_idle hidle i hcommand
    by_cases hinit : i = .init
    · subst hinit
      exact ⟨_, rfl, .init⟩
    · exact ⟨_, commandsRefusedOutsideIdle i s hcommand hinit hidle, .answered _ _⟩

/-- What is known of an instruction that answered a next state. -/
theorem ran_of_exec {i : Instr} {s t : State} (h : exec i s = .next t) : Ran s i t := by
  obtain ⟨t', ht', hran⟩ := exec_ran i s
  obtain rfl : t' = t := Host.Outcome.next.inj (ht'.symm.trans h)
  exact hran

/-- Settles O41: `exec_ran`. -/
theorem everyInstructionCompletes : Obligations.EveryInstructionCompletes := fun i s =>
  have ⟨t, ht, _⟩ := exec_ran i s
  ⟨t, ht⟩

/-! ## The getters (43_motion_control R201 to R205) -/

theorem valveOfIndex_bits (v : ValveId) :
    (v.bits.setWidth 32 : U32) ≤ 7#32 ∧ valveOfIndex (v.bits.setWidth 32) = v := by
  cases v <;> decide

/-- Settles O35: an accepted getter is `respond`; for a direction the index is that of the valve
(`valveOfIndex_bits`). -/
theorem gettersAnswerAndChangeNothing : Obligations.GettersAnswerAndChangeNothing := by
  intro s hidle
  refine ⟨next_whenAccepted_idle hidle _, next_whenAccepted_idle hidle _, next_whenAccepted_idle hidle _, fun v => ?_,
    fun index habove => ?_⟩
  · obtain ⟨hle, hv⟩ := valveOfIndex_bits v
    rw [exec_getValveDirection _ hidle, if_pos hle, hv]
    rfl
  · rw [exec_getValveDirection _ hidle, if_neg (by rw [BitVec.le_def]; exact Nat.not_le.mpr habove)]
    rfl

/-! ## The pump (42_presets R176, 43_motion_control R197) -/

/-- Settles O26: `pumpFor` asks `modePaired`; the partner of a paired member is the member its configuration names. -/
theorem pumpOfPairedModes : Obligations.PumpOfPairedModes := by
  refine ⟨fun c m p => ⟨fun h => ?_, fun h => ?_⟩, fun c m hvalid hpaired => ?_⟩
  · rw [pumpFor, if_pos h]
  · rw [pumpFor, h]
    rfl
  · obtain ⟨e, hmember, -, -, he, hcode⟩ := modePaired_entry hpaired
    obtain ⟨q, hq, hqcode, hqpaired⟩ := hvalid.partnerPaired e hmember he
    have hentry := entryOf_member hvalid hq
    have hmode : modePaired c q.mode = true := by rw [modePaired, hentry]; exact hqpaired
    have hqcode' : modeCode c q.mode = modeCode c m ^^^ 1#32 := by rw [modeCode, hentry, hcode, ← hqcode]
    obtain ⟨hflip, hkeep⟩ := xor_one_bits (modeCode c m)
    exact ⟨q.mode, hmode, hqcode', by rw [hqcode', hflip], fun n hn => by rw [hqcode', hkeep n hn]⟩

/-- The mode after the pump went over to a level and back to bit 0 of the code is the mode before. -/
theorem modeWithPump_modeWithPump {c : Config} {m : Mode} (hvalid : c.Valid) {b : Bool}
    (hb : modePaired c m = true → b = (modeCode c m).getLsbD 0) :
    modeWithPump c (modeWithPump c m (!b)) b = m := by
  cases hpaired : modePaired c m with
  | false =>
    rw [Motion.modeWithPump_unpaired hpaired, Motion.modeWithPump_unpaired hpaired]
  | true =>
    obtain ⟨hpaired', hcode, -⟩ := modeWithPump_paired hvalid hpaired (!b)
    obtain ⟨e, hmember, -, hmode, -, hecode⟩ := modePaired_entry hpaired
    have hback : withBit0 (withBit0 (modeCode c m) (!b)) b = e.code := by
      rw [withBit0_eq (withBit0 _ _), (getLsbD_withBit0 _ _).1, if_neg (by cases b <;> decide), withBit0_eq,
        if_neg (by rw [← hb hpaired]; cases b <;> decide), BitVec.xor_assoc, BitVec.xor_self, BitVec.xor_zero, hecode]
    rw [modeWithPump, if_pos hpaired', hcode, hback, entryOfCode_member hvalid hmember]
    exact hmode

/-- Settles O32: two inversions of the relay; the mode comes back by `modeWithPump_modeWithPump`. -/
theorem togglePumpTwiceRestores : Obligations.TogglePumpTwiceRestores := by
  intro s hidle hvalid hmirror hbit
  refine ⟨_, _, Motion.exec_togglePump hidle, Motion.exec_togglePump hidle, Bool.not_not _, ?_, ?_, ?_⟩
  · dsimp only
    rw [Bool.not_not, ← hmirror]
  · dsimp only
    rw [Bool.not_not]
    exact modeWithPump_modeWithPump hvalid (hbit hidle)
  · dsimp only
    rw [Bool.not_not, List.append_assoc]
    rfl

/-! ### The Zero pair (42_presets R173, R176) -/

/-- Two members that are the Zero pair, each the other's partner. -/
structure ZeroPair (c : Config) (on off : ModeEntry) : Prop where
  onMember : on ∈ c.modes
  offMember : off ∈ c.modes
  onMode : on.mode = .zeroPumpOn
  offMode : off.mode = .zeroPumpOff
  onPaired : on.paired = true
  offPaired : off.paired = true
  offCode : off.code = on.code ^^^ 1#32
  onBit : on.code.getLsbD 0 = true
  offBit : off.code.getLsbD 0 = false

theorem xor_one_xor_one (x : U32) : x ^^^ 1#32 ^^^ 1#32 = x := by
  rw [BitVec.xor_assoc, BitVec.xor_self, BitVec.xor_zero]

/-- Either of the two brings the other. -/
theorem exists_zeroPair {c : Config} (hvalid : c.Valid)
    (h : Mode.zeroPumpOn ∈ c.modes.map (·.mode) ∨ Mode.zeroPumpOff ∈ c.modes.map (·.mode)) :
    ∃ on off, ZeroPair c on off := by
  simp only [List.mem_map] at h
  rcases h with ⟨on, hon, honMode⟩ | ⟨off, hoff, hoffMode⟩
  · obtain ⟨honPaired, honBit, off, hoff, hoffMode, hcode⟩ := hvalid.zeroPumpOn on hon honMode
    obtain ⟨hoffPaired, hoffBit, -⟩ := hvalid.zeroPumpOff off hoff hoffMode
    exact ⟨on, off, hon, hoff, honMode, hoffMode, honPaired, hoffPaired, hcode, honBit, hoffBit⟩
  · obtain ⟨hoffPaired, hoffBit, on, hon, honMode, hcode⟩ := hvalid.zeroPumpOff off hoff hoffMode
    obtain ⟨honPaired, honBit, -⟩ := hvalid.zeroPumpOn on hon honMode
    exact ⟨on, off, hon, hoff, honMode, hoffMode, honPaired, hoffPaired, by rw [hcode, xor_one_xor_one], honBit, hoffBit⟩

section ZeroPair

variable {c : Config} {on off : ModeEntry} (hvalid : c.Valid) (pair : ZeroPair c on off)

include hvalid pair

theorem ZeroPair.entryOf_on : entryOf c .zeroPumpOn = some on := pair.onMode ▸ entryOf_member hvalid pair.onMember

theorem ZeroPair.entryOf_off : entryOf c .zeroPumpOff = some off := pair.offMode ▸ entryOf_member hvalid pair.offMember

theorem ZeroPair.modePaired_on : modePaired c .zeroPumpOn = true := by
  rw [modePaired, pair.entryOf_on hvalid]
  exact pair.onPaired

theorem ZeroPair.modePaired_off : modePaired c .zeroPumpOff = true := by
  rw [modePaired, pair.entryOf_off hvalid]
  exact pair.offPaired

theorem ZeroPair.modeCode_on : modeCode c .zeroPumpOn = on.code := by rw [modeCode, pair.entryOf_on hvalid]

theorem ZeroPair.modeCode_off : modeCode c .zeroPumpOff = off.code := by rw [modeCode, pair.entryOf_off hvalid]

theorem ZeroPair.modeWithPump_on : modeWithPump c .zeroPumpOn false = .zeroPumpOff := by
  rw [modeWithPump, if_pos (pair.modePaired_on hvalid), pair.modeCode_on hvalid, withBit0_eq, pair.onBit,
    if_neg (by decide), ← pair.offCode, entryOfCode_member hvalid pair.offMember]
  exact pair.offMode

theorem ZeroPair.modeWithPump_off : modeWithPump c .zeroPumpOff true = .zeroPumpOn := by
  rw [modeWithPump, if_pos (pair.modePaired_off hvalid), pair.modeCode_off hvalid, withBit0_eq, pair.offBit,
    if_neg (by decide), pair.offCode, xor_one_xor_one, entryOfCode_member hvalid pair.onMember]
  exact pair.onMode

end ZeroPair

/-- Settles O53: the two members (`exists_zeroPair`) and what `toggle_pump` makes of their modes. -/
theorem zeroPairCarriesThePump : Obligations.ZeroPairCarriesThePump := by
  intro c hvalid hmember
  obtain ⟨on, off, pair⟩ := exists_zeroPair hvalid hmember
  have hon := pair.modePaired_on hvalid
  have hoff := pair.modePaired_off hvalid
  refine ⟨List.mem_map.mpr ⟨on, pair.onMember, pair.onMode⟩, List.mem_map.mpr ⟨off, pair.offMember, pair.offMode⟩,
    hon, hoff, ?_, fun p => ⟨?_, ?_⟩, fun s hcfg hidle =>
      ⟨fun hmode hrelay => ⟨_, Motion.exec_togglePump hidle, ?_, ?_⟩,
        fun hmode hrelay => ⟨_, Motion.exec_togglePump hidle, ?_, ?_⟩⟩⟩
  · rw [pair.modeCode_on hvalid, pair.modeCode_off hvalid, pair.offCode]
  · rw [pumpFor, if_pos hon, pair.modeCode_on hvalid, pair.onBit]
  · rw [pumpFor, if_pos hoff, pair.modeCode_off hvalid, pair.offBit]
  · dsimp only
    rw [hcfg, hmode, hrelay]
    exact pair.modeWithPump_on hvalid
  · exact congrArg (!·) hrelay
  · dsimp only
    rw [hcfg, hmode, hrelay]
    exact pair.modeWithPump_off hvalid
  · exact congrArg (!·) hrelay

end Sys2Proof.Proofs.Step

end

/-! The watch over the bus (41_driver R148): lists of events that keep two ICs ready for a transfer, and lists without a
transfer, which the watch cannot stop at. -/

section

namespace Sys2Proof.Proofs.Bus

open Machine Safety Laws

variable {wakeupMs : U32}

theorem run_append (x : Watch) (es fs : List Event) :
    x.run wakeupMs (es ++ fs) = (x.run wakeupMs es).bind fun y => y.run wakeupMs fs := by
  induction es generalizing x with
  | nil => rfl
  | cons e es ih =>
    simp only [List.cons_append, Watch.run]
    cases x.next wakeupMs e with
    | none => rfl
    | some y => exact ih y

/-- Both ICs may be sent a word: not selected, awake, out of reset, settled, SPI enabled. -/
structure Ready (x : Watch) : Prop where
  spiOn : x.spiOn = true
  settled : x.settled = ⟨true, true⟩
  lines : ∀ ic, (icGet x.lines ic).cs = false ∧ (icGet x.lines ic).nSleep = true ∧ (icGet x.lines ic).nReset = true

/-- Events that take two ready ICs to two ready ICs, with every transfer in order. -/
def InOrder (wakeupMs : U32) (es : List Event) : Prop := ∀ x, Ready x → ∃ y, x.run wakeupMs es = some y ∧ Ready y

theorem InOrder.nil : InOrder wakeupMs [] := fun x hx => ⟨x, rfl, hx⟩

theorem InOrder.append {es fs : List Event} (h : InOrder wakeupMs es) (h' : InOrder wakeupMs fs) :
    InOrder wakeupMs (es ++ fs) := by
  intro x hx
  obtain ⟨y, hy, hready⟩ := h x hx
  obtain ⟨z, hz, hready'⟩ := h' y hready
  exact ⟨z, by rw [run_append, hy]; exact hz, hready'⟩

/-- A delay can settle nothing more. -/
theorem next_delay_of_settled {x : Watch} (h : x.settled = ⟨true, true⟩) (ms : U32) :
    x.next wakeupMs (.delay ms) = some x := by
  simp only [Watch.next, ← h, ite_self]

theorem inOrder_delay (ms : U32) : InOrder wakeupMs [.delay ms] := fun x hx =>
  ⟨x, by rw [Watch.run, next_delay_of_settled hx.settled]; rfl, hx⟩

theorem inOrder_relay (level : Bool) : InOrder wakeupMs [.relay level] := fun x hx => ⟨x, rfl, hx⟩

theorem ready_linesAfterXfer {x : Watch} (hx : Ready x) (ic : IcId) :
    Ready { x with lines := icSet x.lines ic (linesAfterXfer (icGet x.lines ic)) } := by
  refine ⟨hx.spiOn, hx.settled, fun ic' => ?_⟩
  by_cases heq : ic' = ic
  · subst heq
    dsimp only
    rw [icGet_icSet_same]
    exact ⟨rfl, (hx.lines ic').2⟩
  · dsimp only
    rw [icGet_icSet_ne _ _ heq]
    exact hx.lines ic'

/-- One unit with a well-formed word (41_driver R140, 30_encoding R96). -/
theorem inOrder_xferEvents (strobeMs : U32) (ic : IcId) {w : U16} (hw : w.extractLsb' 13 3 = 0#3) (ok : Bool) :
    InOrder wakeupMs (xferEvents strobeMs ic w ok) := by
  refine fun x hx => ⟨_, ?_, ready_linesAfterXfer hx ic⟩
  obtain ⟨hcsA, hsleepA, hresetA⟩ := hx.lines .icA
  obtain ⟨hcsB, hsleepB, hresetB⟩ := hx.lines .icB
  have hspi := hx.spiOn
  have hsettled := hx.settled
  obtain ⟨⟨lA, lB⟩, on, settled⟩ := x
  simp only [icGet] at hcsA hsleepA hresetA hcsB hsleepB hresetB hspi hsettled
  cases ic <;>
    simp [xferEvents, Watch.run, Watch.next, Watch.allows, icGet, icSet, lineSet, linesAfterXfer, reserved_high_byte,
      hw, hcsA, hsleepA, hresetA, hcsB, hsleepB, hresetB, hspi, hsettled]

theorem inOrder_unitEvents (strobeMs : U32) {words : List (IcId × U16)}
    (hwords : ∀ x ∈ words, x.2.extractLsb' 13 3 = 0#3) (oks : List Bool) :
    InOrder wakeupMs (unitEvents strobeMs words oks) := by
  induction words generalizing oks with
  | nil => exact .nil
  | cons x xs ih =>
    obtain ⟨hx, hxs⟩ := List.forall_mem_cons.mp hwords
    cases oks with
    | nil => exact .nil
    | cons ok oks =>
      refine (inOrder_xferEvents strobeMs x.1 hx ok).append ?_
      cases ok
      · exact .nil
      · exact ih hxs oks

/-- Both words of four fields have their reserved bits zero. -/
theorem reserved_assemble (f : ByChannel ChannelField) :
    (assemble f).1.extractLsb' 13 3 = 0#3 ∧ (assemble f).2.extractLsb' 13 3 = 0#3 := by
  rw [assemble_eq]
  simp only [reserved_wordOf]
  decide

theorem reserved_phaseWords (F : FieldSets) : ∀ x ∈ phaseWords F, x.2.extractLsb' 13 3 = 0#3 := by
  obtain ⟨hAB, hCD⟩ := reserved_assemble F.icA
  obtain ⟨hAB', hCD'⟩ := reserved_assemble F.icB
  simp [phaseWords, hAB, hCD, hAB', hCD']

theorem inOrder_panicItemEvents (strobeMs : U32) (items : List PanicItem) (oks : List Bool) :
    InOrder wakeupMs (panicItemEvents strobeMs items oks) := by
  induction items generalizing oks with
  | nil => exact .nil
  | cons x xs ih =>
    cases x with
    | hold ms => exact (inOrder_delay ms).append (ih oks)
    | call ic f =>
      obtain ⟨hAB, hCD⟩ := reserved_assemble f
      match oks with
      | [] | [true] => exact .nil
      | true :: ok :: oks =>
        exact ((inOrder_xferEvents strobeMs ic hAB true).append (inOrder_xferEvents strobeMs ic hCD ok)).append (ih oks)
      | false :: oks => exact (inOrder_xferEvents strobeMs ic hAB false).append (ih oks)

/-- The wake makes two ICs at rest ready (43_motion_control R193 step 1). -/
theorem run_wakeEvents {s : State} (hA : linesRest s.pin.icA) (hB : linesRest s.pin.icB) (hspi : s.spiOn = true) :
    ∃ y, (Watch.start s).run s.cfg.wakeupDelayMs (wakeEvents s.cfg) = some y ∧ Ready y := by
  obtain ⟨hcsA, -, hresetA⟩ := hA
  obtain ⟨hcsB, -, hresetB⟩ := hB
  refine ⟨⟨⟨{ s.pin.icA with nSleep := true }, { s.pin.icB with nSleep := true }⟩, true, ⟨true, true⟩⟩, ?_,
    rfl, rfl, fun ic => ?_⟩
  · simp [wakeEvents, Watch.run, Watch.next, Watch.start, icSet, icGet, lineSet, hspi]
  · cases ic
    · exact ⟨hcsA, rfl, hresetA⟩
    · exact ⟨hcsB, rfl, hresetB⟩

/-- The watch stops at a transfer alone. -/
theorem run_isSome_of_no_transfer (x : Watch) {es : List Event} (h : ∀ e ∈ es, isSpi e = false) :
    (x.run wakeupMs es).isSome = true := by
  induction es generalizing x with
  | nil => rfl
  | cons e es ih =>
    obtain ⟨he, hes⟩ := List.forall_mem_cons.mp h
    cases e with
    | spi => cases he
    | pin | delay | relay | spiCfg | spiOff | spiOn => exact ih _ hes

/-- A wake, transfers in order, and an end without a transfer. -/
theorem run_isSome_of_inOrder {s : State} {es fs : List Event} (hA : linesRest s.pin.icA) (hB : linesRest s.pin.icB)
    (hspi : s.spiOn = true) (hes : InOrder s.cfg.wakeupDelayMs es) (hfs : ∀ e ∈ fs, isSpi e = false) :
    ((Watch.start s).run s.cfg.wakeupDelayMs (wakeEvents s.cfg ++ es ++ fs)).isSome = true := by
  obtain ⟨x, hx, hready⟩ := run_wakeEvents hA hB hspi
  obtain ⟨y, hy, -⟩ := hes x hready
  rw [run_append, run_append, hx, Option.bind_some, hy]
  exact run_isSome_of_no_transfer y hfs

end Sys2Proof.Proofs.Bus

end

/-! The two actuations (43_motion_control R193, R209): `valve_override` step by step, and what either leaves behind whatever
its transfers are answered, said once. -/

section

namespace Sys2Proof.Proofs.Actuation

open Machine Safety Laws Motion Device Bus

/-! ## `valve_override` (43_motion_control R209) -/

section Override

variable {s : State} (v : ValveId) (direction : Bool)

/-- A set of the valve's IC with the valve's channel replaced. -/
def withField (c : Config) (v : ValveId) (sets : IcCommandSet) (f : ChannelField) : IcCommandSet :=
  updateChannel sets (valveLookup c v).2 f

/-- The unit that sends the word of the valve's channel. -/
def valveUnit (c : Config) (v : ValveId) (sets : IcCommandSet) (ok : Bool) : List Event :=
  xferEvents c.strobeDelayMs (valveLookup c v).1 (wordHolding sets (valveLookup c v).2) ok

/-- One single-channel call of the actuation, in whatever phase it is made. -/
theorem valveCall_actuated (x : Phase) (f : ChannelField) {ok : Bool} (h : drawnOk s = ok) :
    let ic := (valveLookup s.cfg v).1
    let c := withField s.cfg v (icGet s.committed ic) f
    ∃ t, drvSetSingleChannel ic (valveLookup s.cfg v).2 f (s.setPhase x) = (if ok then .ok else .transferFailed, t) ∧
      Actuated s t (icSet s.pending ic c) (if ok then icSet s.committed ic c else s.committed)
        (valveUnit s.cfg v c ok) 1 := by
  subst h
  exact ⟨_, Driver.drvSetSingleChannel_written _ _ f (s.setPhase x), _, _, x, s.failed, by rw [List.drop_one]; rfl⟩

/-- The pulse did not go through, and the actuation stops there. -/
theorem overridePulse_actuated_of_failed (fon foff : ChannelField) (h : nextAnswers s 1 = [false]) :
    let ic := (valveLookup s.cfg v).1
    let c1 := withField s.cfg v (icGet s.committed ic) fon
    ∃ t, overridePulse v direction fon foff s = (.transferFailed, t) ∧
      Actuated s t (icSet s.pending ic c1) s.committed (valveUnit s.cfg v c1 false) 1 := by
  obtain ⟨t, ht, hact⟩ := valveCall_actuated v .pulse fon (List.head_eq_of_cons_eq h : drawnOk s = false)
  refine ⟨t, ?_, hact⟩
  rw [overridePulse, ht]
  rfl

/-- The pulse went through, and the actuation is what follows the hold. -/
theorem overridePulse_actuated_of_pulse_ok (fon foff : ChannelField) (h : drawnOk s = true) :
    let ic := (valveLookup s.cfg v).1
    let c1 := withField s.cfg v (icGet s.committed ic) fon
    ∃ t, overridePulse v direction fon foff s = overrideRelease v direction foff t ∧ t.mirror = s.mirror ∧
      Actuated s t (icSet s.pending ic c1) (icSet s.committed ic c1)
        (valveUnit s.cfg v c1 true ++ [.delay s.pulseWidthMs]) 1 := by
  obtain ⟨t, ht, hact⟩ := valveCall_actuated v .pulse fon h
  have held := hact.hold t.pulseWidthMs
  rw [hact.pulseWidthMs] at held
  refine ⟨hold s.pulseWidthMs t, ?_, ?_, held⟩
  · rw [overridePulse, ht, ← hact.pulseWidthMs]
    exact if_pos rfl
  · obtain ⟨_, _, _, _, hheld⟩ := held
    rw [hheld]

/-- The release, answered `ok`: on success the mirror takes the direction. -/
theorem overrideRelease_actuated (foff : ChannelField) {ok : Bool} (h : drawnOk s = ok) :
    let ic := (valveLookup s.cfg v).1
    let c := withField s.cfg v (icGet s.committed ic) foff
    ∃ t, overrideRelease v direction foff s =
        (if ok then (.ok, (t.setPhase .commit).setMirror (withDirection s.mirror v direction))
          else (.transferFailed, t)) ∧
      Actuated s t (icSet s.pending ic c) (if ok then icSet s.committed ic c else s.committed)
        (valveUnit s.cfg v c ok) 1 := by
  obtain ⟨t, ht, hact⟩ := valveCall_actuated v .release foff h
  refine ⟨t, ?_, hact⟩
  have hmirror : t.mirror = s.mirror := by
    obtain ⟨_, _, _, _, ht'⟩ := hact
    rw [ht']
  rw [overrideRelease, ht, ← hmirror]
  cases ok <;> rfl

/-- The pulse went through, the release was answered `ok`. -/
theorem overridePulse_actuated_of_ok (fon foff : ChannelField) {ok : Bool} (h : nextAnswers s 2 = [true, ok]) :
    let ic := (valveLookup s.cfg v).1
    let c1 := withField s.cfg v (icGet s.committed ic) fon
    let c2 := withField s.cfg v c1 foff
    ∃ t, overridePulse v direction fon foff s =
        (if ok then (.ok, (t.setPhase .commit).setMirror (withDirection s.mirror v direction))
          else (.transferFailed, t)) ∧
      Actuated s t (icSet s.pending ic c2) (icSet s.committed ic (if ok then c2 else c1))
        (valveUnit s.cfg v c1 true ++ [.delay s.pulseWidthMs] ++ valveUnit s.cfg v c2 ok) 2 := by
  obtain ⟨t, ht, hmirror, held⟩ := overridePulse_actuated_of_pulse_ok v direction fon foff
    (Driver.nextAnswers_two_eq h).1
  have hrelease : drawnOk t = ok := List.head_eq_of_cons_eq (held.nextAnswers_eq (oks := [true]) (m := 1) h rfl)
  obtain ⟨u, hu, hact⟩ := overrideRelease_actuated v direction foff hrelease
  rw [held.cfg, held.pending, held.committed, icGet_icSet_same, icSet_icSet, icSet_icSet] at hact
  refine ⟨u, by rw [ht, hu, hmirror], ?_⟩
  cases ok <;> exact held.trans hact

/-- A target is in range when the mirror's current and decay are: the direction is a bit. -/
theorem inRange_overrideTarget (s : State) :
    (overrideTarget s v direction).inRange = true ↔
      (valveGet s.mirror.valve v).current.toNat ≤ 7 ∧ (valveGet s.mirror.valve v).decay.toNat ≤ 1 := by
  have hdirection : (bit8 direction).toNat ≤ 1 := by cases direction <;> decide
  rw [inRange_iff, overrideTarget]
  dsimp only
  omega

/-- The field sent for the valve, when its target is in range. -/
def overrideField (s : State) (v : ValveId) (direction enable : Bool) : ChannelField :=
  ⟨(valveGet s.mirror.valve v).decay.getLsbD 0, (valveGet s.mirror.valve v).current.extractLsb' 0 3, direction, enable⟩

theorem overrideRun_of_invalid (h : (overrideTarget s v direction).inRange = false) :
    overrideRun v direction s = finish .invalidParameter (woken s) := by
  rw [overrideRun_eq, targetField_eq, if_neg (by rw [h]; decide)]

theorem overrideRun_of_inRange (h : (overrideTarget s v direction).inRange = true) :
    overrideRun v direction s =
      let fon := overrideField s v direction true
      let foff := overrideField s v direction false
      finish (overridePulse v direction fon foff (woken s)).1 (overridePulse v direction fon foff (woken s)).2 := by
  have hbit : (bit8 direction).getLsbD 0 = direction := by cases direction <;> decide
  have hfield (enable : Bool) :
      targetField (overrideTarget s v direction) enable = some (overrideField s v direction enable) := by
    rw [targetField_eq, if_pos h, overrideTarget, overrideField]
    dsimp only
    rw [hbit]
  rw [overrideRun_eq, hfield, hfield]

end Override

/-! ## The state an actuation leaves (60_exceptions R235, R236) -/

/-- What `Actuated.finish` writes: the tail's lines and device, the response, and of the block only the command sets. -/
def rested (s : State) (p c : ByIc IcCommandSet) (es : List Event) (n : Nat) (r : Result) : State := { s with
  pending := p
  committed := c
  pin := pinsAsleep
  spiOn := true
  dev := devCleared
  phase := .idle
  failed := false
  trace := s.trace ++ es ++ tailEvents s.cfg
  spiAnswers := s.spiAnswers.drop n
  draws := s.draws + n
  results := s.results ++ [.response r 0] }

section Finish

variable {s t : State} {p c : ByIc IcCommandSet} {es : List Event} {n : Nat}

theorem finish_of_actuated (h : Actuated s t p c es n) (r : Result) : finish r t = rested s p c es n r := h.finish r

theorem finish_setMirror_of_actuated (h : Actuated s t p c es n) (r : Result) (q : Preset) :
    finish r ((t.setPhase .commit).setMirror q) = { rested s p c es n r with mirror := q } := by
  obtain ⟨_, _, _, _, rfl⟩ := h
  rw [finish_eq]
  rfl

end Finish

/-- `valve_override` whose target is out of range. -/
theorem overrideRun_rested_of_invalid {s : State} {v : ValveId} {direction : Bool}
    (h : (overrideTarget s v direction).inRange = false) :
    overrideRun v direction s = rested s s.pending s.committed (wakeEvents s.cfg) 0 .invalidParameter := by
  rw [overrideRun_of_invalid v direction h]
  exact finish_of_actuated (woken_actuated s) .invalidParameter

section OverrideRested

variable {s : State} {v : ValveId} {direction : Bool} (hrange : (overrideTarget s v direction).inRange = true)

include hrange

/-- `valve_override` whose pulse failed. -/
theorem overrideRun_rested_of_failed (h : nextAnswers s 1 = [false]) :
    let ic := (valveLookup s.cfg v).1
    let c1 := withField s.cfg v (icGet s.committed ic) (overrideField s v direction true)
    overrideRun v direction s = rested s (icSet s.pending ic c1) s.committed
      (wakeEvents s.cfg ++ valveUnit s.cfg v c1 false) 1 .transferFailed := by
  obtain ⟨t, ht, hact⟩ := overridePulse_actuated_of_failed v direction (overrideField s v direction true)
    (overrideField s v direction false) ((nextAnswers_congr (woken_spiAnswers s) (woken_draws s) _).trans h)
  rw [overrideRun_of_inRange v direction hrange]
  dsimp only
  rw [ht]
  simpa only [woken_cfg, woken_pending, woken_committed, Nat.zero_add] using
    finish_of_actuated ((woken_actuated s).trans hact) .transferFailed

/-- `valve_override` whose pulse went through, the release answered `ok`. -/
theorem overrideRun_rested_of_ok {ok : Bool} (h : nextAnswers s 2 = [true, ok]) :
    let ic := (valveLookup s.cfg v).1
    let c1 := withField s.cfg v (icGet s.committed ic) (overrideField s v direction true)
    let c2 := withField s.cfg v c1 (overrideField s v direction false)
    let es := wakeEvents s.cfg ++ (valveUnit s.cfg v c1 true ++ [.delay s.pulseWidthMs] ++ valveUnit s.cfg v c2 ok)
    overrideRun v direction s =
      if ok then { rested s (icSet s.pending ic c2) (icSet s.committed ic c2) es 2 .ok with
        mirror := withDirection s.mirror v direction }
      else rested s (icSet s.pending ic c2) (icSet s.committed ic c1) es 2 .transferFailed := by
  obtain ⟨t, ht, hact⟩ := overridePulse_actuated_of_ok v direction (overrideField s v direction true)
    (overrideField s v direction false) ((nextAnswers_congr (woken_spiAnswers s) (woken_draws s) _).trans h)
  rw [overrideRun_of_inRange v direction hrange]
  dsimp only
  rw [ht, woken_mirror]
  have hall := (woken_actuated s).trans hact
  simp only [woken_cfg, woken_pending, woken_committed, woken_pulseWidthMs, Nat.zero_add] at hall
  cases ok with
  | false => exact finish_of_actuated hall .transferFailed
  | true => exact finish_setMirror_of_actuated hall .ok _

end OverrideRested

/-- Settles O39: the target is out of range, the pulse failed, or the release did or did not (`overrideRun_rested_of_ok`). -/
theorem valveOverrideFollowsItsSteps : Obligations.ValveOverrideFollowsItsSteps := by
  intro s v direction hidle
  dsimp only
  rw [Step.exec_valveOverride v direction hidle]
  refine ⟨fun hout => ⟨devCleared, ?_⟩, fun hcurrent hdecay => ?_⟩
  · rw [overrideRun_rested_of_invalid (by rw [← Bool.not_eq_true, inRange_overrideTarget]; omega)]
    rfl
  have hrange := (inRange_overrideTarget v direction s).mpr ⟨hcurrent, hdecay⟩
  refine ⟨fun h => ⟨devCleared, ?_⟩, fun h => ⟨devCleared, ?_⟩, fun h => ⟨devCleared, ?_⟩⟩
  · rw [overrideRun_rested_of_failed hrange h]
    simp only [rested, List.append_assoc]
    rfl
  · rw [overrideRun_rested_of_ok hrange h]
    simp only [rested, List.append_assoc]
    rfl
  · rw [overrideRun_rested_of_ok hrange h]
    simp only [rested, List.append_assoc]
    cases direction <;> rfl

end Sys2Proof.Proofs.Actuation

end

/-! What the actuations leave behind (43_motion_control R193, R209; 60_exceptions R235, R236), said once for all answers, and
the statements that follow from it. -/

section

namespace Sys2Proof.Proofs.Actuation

open Machine Safety Laws Motion Device Bus Step

/-! ## Every outcome of an actuation -/

/-- Both ICs' words are those of their fields (10_state R22). -/
def SetsMatch (x : ByIc IcCommandSet) : Prop := wordsMatch x.icA ∧ wordsMatch x.icB

theorem SetsMatch.icGet {x : ByIc IcCommandSet} (h : SetsMatch x) (ic : IcId) : wordsMatch (icGet x ic) := by
  cases ic
  · exact h.1
  · exact h.2

theorem SetsMatch.icSet {x : ByIc IcCommandSet} (h : SetsMatch x) (ic : IcId) {c : IcCommandSet} (hc : wordsMatch c) :
    SetsMatch (icSet x ic c) := by
  cases ic
  · exact ⟨hc, h.2⟩
  · exact ⟨h.1, hc⟩

theorem SetsMatch.commitWord {x : ByIc IcCommandSet} (h : SetsMatch x) (F : FieldSets) (n : Nat) :
    SetsMatch (commitWord F x n) := by
  match n with
  | 0 => exact ⟨wordsMatch_commitAB h.1 F.icA, h.2⟩
  | 1 => exact ⟨wordsMatch_commitCD h.1 F.icA, h.2⟩
  | 2 => exact ⟨h.1, wordsMatch_commitAB h.2 F.icB⟩
  | 3 => exact ⟨h.1, wordsMatch_commitCD h.2 F.icB⟩
  | _ + 4 => exact h

theorem SetsMatch.committedAfter {x : ByIc IcCommandSet} (h : SetsMatch x) (Fon Foff : FieldSets) (k : Nat) :
    SetsMatch (committedAfter Fon Foff x k) := by
  refine List.foldlRecOn (motive := SetsMatch) (List.range k) _ h fun y hy n _ => ?_
  split
  · exact hy.commitWord Fon n
  · exact hy.commitWord Foff (n - 4)

theorem SetsMatch.pendingAfter {x : ByIc IcCommandSet} (h : SetsMatch x) (Fon Foff : FieldSets) (k : Nat) :
    SetsMatch (pendingAfter Fon Foff x k) := by
  constructor <;> simp only [Safety.pendingAfter]
  · split <;> exact wordsMatch_freshSet _
  · split
    · exact h.2
    · split <;> exact wordsMatch_freshSet _

/-- The next `n` transfers succeed, or there is a first that fails. -/
theorem nextAnswers_cases (s : State) (n : Nat) :
    nextAnswers s n = List.replicate n true ∨ ∃ k < n, nextAnswers s (k + 1) = List.replicate k true ++ [false] := by
  induction n generalizing s with
  | zero => exact .inl rfl
  | succ n ih =>
    cases hok : drawnOk s with
    | false => exact .inr ⟨0, Nat.succ_pos n, congrArg ([·]) hok⟩
    | true =>
      rcases ih (afterDraw s) with hall | ⟨k, hk, hfirst⟩
      · exact .inl (by rw [nextAnswers, hok, hall]; rfl)
      · exact .inr ⟨k + 1, Nat.succ_lt_succ hk, by rw [nextAnswers, hok, hfirst]; rfl⟩

/-- What the steps of an actuation keep: command sets whose words are those of their fields, and the order on the bus. -/
structure Sound (s : State) (p c : ByIc IcCommandSet) (es : List Event) : Prop where
  pending : SetsMatch s.pending → SetsMatch s.committed → SetsMatch p
  committed : SetsMatch s.committed → SetsMatch c
  inOrder : SetsMatch s.committed → InOrder s.cfg.wakeupDelayMs es

theorem Sound.refl (s : State) : Sound s s.pending s.committed [] :=
  ⟨fun h _ => h, fun h => h, fun _ => .nil⟩

theorem inOrder_phase (wakeupMs strobeMs : U32) (F : FieldSets) (oks : List Bool) :
    InOrder wakeupMs (unitEvents strobeMs (phaseWords F) oks) :=
  inOrder_unitEvents strobeMs (reserved_phaseWords F) oks

/-- Steps 4 to 7 of `set_mode`: some word failed, or the mode is committed (43_motion_control R193). -/
theorem actuate_cases (s : State) (m : Mode) (q : Preset) (Fon Foff : FieldSets) :
    ∃ t p c es n, Actuated s t p c es n ∧ Sound s p c es ∧
      ((∃ r, r ≠ .ok ∧ actuate m q Fon Foff s = (r, t)) ∨ actuate m q Fon Foff s = (.ok, commitMode m q t)) := by
  rcases nextAnswers_cases s 8 with hall | ⟨k, hk, hfirst⟩
  · obtain ⟨t, ht, hact⟩ := actuate_actuated_of_ok (Fon := Fon) (Foff := Foff) m q hall
    have hfresh := And.intro (wordsMatch_freshSet Foff.icA) (wordsMatch_freshSet Foff.icB)
    exact ⟨t, _, _, _, _, hact, ⟨fun _ _ => hfresh, fun _ => hfresh, fun _ =>
      ((inOrder_phase _ _ Fon _).append (inOrder_delay _)).append (inOrder_phase _ _ Foff _)⟩, .inr ht⟩
  · rcases lt_or_ge k 4 with hlt | hge
    · obtain ⟨t, ht, hact⟩ := actuate_actuated_of_pulse_failed (Fon := Fon) (Foff := Foff) m q hlt hfirst
      exact ⟨t, _, _, _, _, hact, ⟨fun h _ => h.pendingAfter Fon Foff k, fun h => h.committedAfter Fon Foff k,
        fun _ => inOrder_phase _ _ Fon _⟩, .inl ⟨_, failureOf_ne_ok k, ht⟩⟩
    · obtain ⟨j, rfl⟩ := Nat.exists_eq_add_of_le hge
      obtain ⟨t, ht, hact⟩ :=
        actuate_actuated_of_release_failed (Fon := Fon) (Foff := Foff) m q (Nat.add_lt_add_iff_left.mp hk) hfirst
      exact ⟨t, _, _, _, _, hact, ⟨fun h _ => h.pendingAfter Fon Foff _, fun h => h.committedAfter Fon Foff _,
        fun _ => ((inOrder_phase _ _ Fon _).append (inOrder_delay _)).append (inOrder_phase _ _ Foff _)⟩,
        .inl ⟨_, failureOf_ne_ok _, ht⟩⟩

/-- What `set_mode(m)` writes besides when it commits. -/
def restedIn (m : Mode) (s : State) (p c : ByIc IcCommandSet) (es : List Event) (n : Nat) : State :=
  { rested s p c (es ++ [.relay (pumpFor s.cfg m (tableGet s.table m))]) n .ok with
    relay := pumpFor s.cfg m (tableGet s.table m)
    mirror := tableGet s.table m
    mode := m }

theorem route_none_iff (c : Config) (q : Preset) : route c q true = none ↔ route c q false = none := by
  rw [Presets.route_eq_none_iff, Presets.route_eq_none_iff]

/-- Every outcome of `set_mode`: it failed and committed nothing, or it is in the new mode. -/
theorem setModeRun_cases (m : Mode) (s : State) :
    ∃ p c es n, Sound s p c es ∧
      ((∃ r, r ≠ .ok ∧ setModeRun m s = rested s p c (wakeEvents s.cfg ++ es) n r) ∨
        setModeRun m s = restedIn m s p c (wakeEvents s.cfg ++ es) n) := by
  have wake := woken_actuated s
  cases hon : route s.cfg (tableGet s.table m) true with
  | none =>
    refine ⟨_, _, _, 0, Sound.refl s, .inl ⟨.invalidParameter, by decide, ?_⟩⟩
    rw [setModeRun_of_route_none hon, List.append_nil]
    exact finish_of_actuated wake _
  | some Fon =>
    cases hoff : route s.cfg (tableGet s.table m) false with
    | none => exact absurd ((route_none_iff _ _).mpr hoff) (by rw [hon]; exact Option.some_ne_none Fon)
    | some Foff =>
      obtain ⟨t, p, c, es, n, hact, hsound, hcases⟩ := actuate_cases (woken s) m (tableGet s.table m) Fon Foff
      have hall := wake.trans hact
      rw [Nat.zero_add] at hall
      refine ⟨p, c, es, n, ⟨?_, ?_, ?_⟩, ?_⟩
      · simpa only [woken_pending, woken_committed] using hsound.pending
      · simpa only [woken_committed] using hsound.committed
      · simpa only [woken_committed, woken_cfg] using hsound.inOrder
      rcases hcases with ⟨r, hr, ht⟩ | ht
      · exact .inl ⟨r, hr, (setModeRun_of_route hon hoff ht).trans (finish_of_actuated hall r)⟩
      · refine .inr ((setModeRun_of_route hon hoff ht).trans ?_)
        rw [hall.finish_commitMode]
        simp only [restedIn, rested, List.append_assoc]

/-- The word of a valve's channel in a set whose words match. -/
theorem inOrder_valveUnit (wakeupMs : U32) (cfg : Config) (v : ValveId) {c : IcCommandSet} (h : wordsMatch c) (ok : Bool) :
    InOrder wakeupMs (valveUnit cfg v c ok) := by
  refine inOrder_xferEvents _ _ ?_ ok
  rw [wordHolding_of_wordsMatch h]
  cases (valveLookup cfg v).2 <;> dsimp only <;> rw [reserved_wordOf] <;> decide

theorem wordsMatch_withField {c : IcCommandSet} (h : wordsMatch c) (cfg : Config) (v : ValveId) (f : ChannelField) :
    wordsMatch (withField cfg v c f) := wordsMatch_updateChannel h _ f

/-- Every outcome of `valve_override`: it failed and the mirror is kept, or the mirror has the new direction. -/
theorem overrideRun_cases (v : ValveId) (direction : Bool) (s : State) :
    ∃ p c es n, Sound s p c es ∧
      ((∃ r, r ≠ .ok ∧ overrideRun v direction s = rested s p c (wakeEvents s.cfg ++ es) n r) ∨
        overrideRun v direction s =
          { rested s p c (wakeEvents s.cfg ++ es) n .ok with mirror := withDirection s.mirror v direction }) := by
  cases hrange : (overrideTarget s v direction).inRange with
  | false =>
    refine ⟨_, _, _, 0, Sound.refl s, .inl ⟨.invalidParameter, by decide, ?_⟩⟩
    rw [overrideRun_rested_of_invalid hrange, List.append_nil]
  | true =>
    have hc1 (h : SetsMatch s.committed) :=
      wordsMatch_withField (h.icGet (valveLookup s.cfg v).1) s.cfg v (overrideField s v direction true)
    have hc2 (h : SetsMatch s.committed) := wordsMatch_withField (hc1 h) s.cfg v (overrideField s v direction false)
    cases hpulse : drawnOk s with
    | false =>
      have hanswers : nextAnswers s 1 = [false] := congrArg ([·]) hpulse
      refine ⟨_, _, _, 1, ⟨fun hp hc => hp.icSet _ (hc1 hc), fun hc => hc, fun hc => ?_⟩,
        .inl ⟨.transferFailed, by decide, overrideRun_rested_of_failed hrange hanswers⟩⟩
      exact inOrder_valveUnit _ s.cfg v (hc1 hc) false
    | true =>
      have hanswers : nextAnswers s 2 = [true, drawnOk (afterDraw s)] := congrArg (· :: [_]) hpulse
      have hrun := overrideRun_rested_of_ok hrange hanswers
      have hinOrder (hc : SetsMatch s.committed) := ((inOrder_valveUnit s.cfg.wakeupDelayMs s.cfg v (hc1 hc) true).append
        (inOrder_delay s.pulseWidthMs)).append (inOrder_valveUnit _ s.cfg v (hc2 hc) (drawnOk (afterDraw s)))
      cases hrelease : drawnOk (afterDraw s) with
      | false =>
        rw [hrelease] at hrun hinOrder
        exact ⟨_, _, _, 2, ⟨fun hp hc => hp.icSet _ (hc2 hc), fun hc => hc.icSet _ (hc1 hc), hinOrder⟩,
          .inl ⟨.transferFailed, by decide, hrun⟩⟩
      | true =>
        rw [hrelease] at hrun hinOrder
        exact ⟨_, _, _, 2, ⟨fun hp hc => hp.icSet _ (hc2 hc), fun hc => hc.icSet _ (hc2 hc), hinOrder⟩, .inr hrun⟩

end Sys2Proof.Proofs.Actuation

end

/-! What every step keeps (10_state R20 to R44, 42_presets R179), and what an actuation leaves of the outside
(60_exceptions R235, R236, R244). -/

section

namespace Sys2Proof.Proofs.Invariant

open Machine Safety Laws Motion Device Bus Step Actuation

/-- What the port does not touch and every instruction and every bare transfer keeps, every step keeps. -/
theorem step_keeps {P : State → Prop} (hport : ∀ s rest, P s → P (s.setInbox rest))
    (hran : ∀ s t i, P s → Ran s i t → P t) (hxfer : ∀ s ic w, P s → P (xferAlone ic w s)) {s t : State} (h : P s)
    (hstep : step s = .next t) : P t := by
  rcases step_next_cases hstep with rfl | ⟨i, rest, hexec⟩ | ⟨rest, rfl⟩ | ⟨ic, w, rest, rfl⟩
  · exact h
  · exact hran _ _ i (hport s rest h) (ran_of_exec hexec)
  · exact hran _ _ .init (hport s rest h) (.answered .init _)
  · exact hxfer _ ic w (hport s rest h)

/-! ## The resting block -/

theorem linesRest_linesAfterXfer {l : Lines} (h : linesRest l) : linesRest (linesAfterXfer l) := ⟨rfl, rfl, h.2.2⟩

/-- `init()` brings the block to rest from any state with a legal pulse width. -/
theorem inv_initRun {s : State} (hwidth : s.cfg.Valid → s.cfg.pulseWidthMinMs ≤ s.pulseWidthMs) (r : Result) (v : U32) :
    Inv (respond r v (initRun s)) := by
  rw [initRun_eq]
  exact {
    phase := .inl rfl
    failed := rfl
    pendingWords := ⟨wordsMatch_zero, wordsMatch_zero⟩
    committedWords := ⟨wordsMatch_zero, wordsMatch_zero⟩
    tableKeys := List.map_map
    lines := fun _ => ⟨⟨rfl, rfl, rfl⟩, ⟨rfl, rfl, rfl⟩, rfl⟩
    width := hwidth
    mode := fun hvalid _ => hvalid.restMember }

/-- The end of an actuation, with whatever mode, mirror and relay it leaves, as long as the mode is a member. -/
theorem inv_rested {s : State} (h : Inv s) {p c : ByIc IcCommandSet} {es : List Event} (hsound : Sound s p c es)
    {fs : List Event} {n : Nat} {r : Result} {relay : Bool} {q : Preset} {m : Mode}
    (hmode : s.cfg.Valid → m ∈ s.cfg.modes.map (·.mode)) :
    Inv { rested s p c fs n r with relay := relay, mirror := q, mode := m } where
  phase := .inl rfl
  failed := rfl
  pendingWords := hsound.pending h.pendingWords h.committedWords
  committedWords := hsound.committed h.committedWords
  tableKeys := h.tableKeys
  lines := fun _ => ⟨⟨rfl, rfl, rfl⟩, ⟨rfl, rfl, rfl⟩, rfl⟩
  width := h.width
  mode := fun hvalid _ => hmode hvalid

theorem inv_xferAlone {s : State} (h : Inv s) (ic : IcId) (w : U16) : Inv (xferAlone ic w s) := by
  rw [xferAlone_eq]
  refine ⟨h.phase, h.failed, h.pendingWords, h.committedWords, h.tableKeys, fun hidle => ?_, h.width, h.mode⟩
  obtain ⟨hA, hB, hspi⟩ := h.lines hidle
  cases ic
  · exact ⟨linesRest_linesAfterXfer hA, hB, hspi⟩
  · exact ⟨hA, linesRest_linesAfterXfer hB, hspi⟩

/-- The member `toggle_pump` goes to is one of `MODES`. -/
theorem modeWithPump_member {c : Config} {m : Mode} (h : m ∈ c.modes.map (·.mode)) (b : Bool) :
    modeWithPump c m b ∈ c.modes.map (·.mode) := by
  unfold modeWithPump
  split
  · split
    next e he => exact List.mem_map.mpr ⟨e, (entryOfCode_mem he).1, rfl⟩
    next => exact h
  · exact h

theorem inv_ran {s t : State} {i : Instr} (h : Inv s) (hran : Ran s i t) : Inv t := by
  cases hran with
  | answered => exact ⟨h.phase, h.failed, h.pendingWords, h.committedWords, h.tableKeys, h.lines, h.width, h.mode⟩
  | init => exact inv_initRun h.width _ _
  | setMode code e hidle he =>
    obtain ⟨p, c, es, n, hsound, ⟨r, -, ht⟩ | ht⟩ := setModeRun_cases e.mode s <;> rw [ht]
    · exact inv_rested h hsound fun hvalid => h.mode hvalid hidle
    · exact inv_rested h hsound fun _ => List.mem_map.mpr ⟨e, (entryOfCode_mem he).1, rfl⟩
  | togglePump hidle =>
    exact ⟨h.phase, h.failed, h.pendingWords, h.committedWords, h.tableKeys, h.lines, h.width,
      fun hvalid _ => modeWithPump_member (h.mode hvalid hidle) _⟩
  | setCurrent level hidle hlevel =>
    refine ⟨h.phase, h.failed, h.pendingWords, h.committedWords, ?_, h.lines, h.width, h.mode⟩
    exact List.map_map.trans h.tableKeys
  | setPulseWidthMs ms hidle hmin =>
    exact ⟨h.phase, h.failed, h.pendingWords, h.committedWords, h.tableKeys, h.lines, fun _ => hmin, h.mode⟩
  | panicRecover hidle =>
    refine inv_initRun ?_ _ _
    rw [panicCycles_cfg, panicCycles_pulseWidthMs, wakeBoth_eq]
    exact h.width
  | sleepDrivers hidle =>
    exact ⟨h.phase, h.failed, h.pendingWords, h.committedWords, h.tableKeys, h.lines, h.width, h.mode⟩
  | valveOverride v direction hidle =>
    obtain ⟨p, c, es, n, hsound, ⟨r, -, ht⟩ | ht⟩ := overrideRun_cases v direction s <;> rw [ht]
    · exact inv_rested h hsound fun hvalid => h.mode hvalid hidle
    · exact inv_rested h hsound fun hvalid => h.mode hvalid hidle
  | wordAb ic b a => exact inv_xferAlone h ic _
  | wordCd ic d c => exact inv_xferAlone h ic _

/-- Settles O45: instruction by instruction (`inv_ran`); an actuation ends in `inv_rested`, `init()` in `inv_initRun`. -/
theorem everyStepKeepsTheRestingBlock : Obligations.EveryStepKeepsTheRestingBlock := by
  intro s t h hstep
  refine step_keeps (fun s rest h => ?_) (fun s t i => inv_ran) (fun s ic w h => inv_xferAlone h ic w) h hstep
  exact ⟨h.phase, h.failed, h.pendingWords, h.committedWords, h.tableKeys, h.lines, h.width, h.mode⟩

/-- Settles O46: the zero command sets match, and the table has one zero preset per mode. -/
theorem resetIsARestingBlock : Obligations.ResetIsARestingBlock where
  phase := .inr rfl
  failed := rfl
  pendingWords := ⟨wordsMatch_zero, wordsMatch_zero⟩
  committedWords := ⟨wordsMatch_zero, wordsMatch_zero⟩
  tableKeys := List.map_map
  lines := fun h => by cases h
  width := fun hvalid => hvalid.defaultNotBelowMin
  mode := fun _ h => by cases h

/-! ## Who writes what (10_state R20) -/

theorem ran_cfg {s t : State} {i : Instr} (h : Ran s i t) : t.cfg = s.cfg ∧ t.inbox = s.inbox := by
  cases h with
  | answered | togglePump | setCurrent | setPulseWidthMs | sleepDrivers => exact ⟨rfl, rfl⟩
  | init => rw [initRun_eq]; exact ⟨rfl, rfl⟩
  | panicRecover =>
    rw [initRun_eq, wakeBoth_eq]
    exact ⟨panicCycles_cfg _ _, panicCycles_inbox _ _⟩
  | setMode code e =>
    obtain ⟨p, c, es, n, -, ⟨r, -, ht⟩ | ht⟩ := setModeRun_cases e.mode s <;> rw [ht] <;> exact ⟨rfl, rfl⟩
  | valveOverride v direction =>
    obtain ⟨p, c, es, n, -, ⟨r, -, ht⟩ | ht⟩ := overrideRun_cases v direction s <;> rw [ht] <;> exact ⟨rfl, rfl⟩
  | wordAb | wordCd => rw [xferAlone_eq]; exact ⟨rfl, rfl⟩

/-- Settles O42: for each instruction what it does not write is unchanged, and it is named for what it writes. -/
theorem onlyTheNamedInstructionsWrite : Obligations.OnlyTheNamedInstructionsWrite := by
  intro i s t hexec
  have hran := ran_of_exec hexec
  refine ⟨(ran_cfg hran).1, (ran_cfg hran).2, ?_⟩
  cases hran with
  | answered => simp
  | init => simp [initRun_eq]
  | panicRecover hidle => simp [initRun_eq, panicCycles_pulseWidthMs, wakeBoth_eq, hidle]
  | togglePump => simp
  | setCurrent => simp
  | setPulseWidthMs => simp
  | sleepDrivers => simp
  | setMode code e hidle =>
    obtain ⟨p, c, es, n, -, ⟨r, -, ht⟩ | ht⟩ := setModeRun_cases e.mode s <;> simp [ht, restedIn, rested, hidle]
  | valveOverride v direction hidle =>
    obtain ⟨p, c, es, n, -, ⟨r, -, ht⟩ | ht⟩ := overrideRun_cases v direction s <;> simp [ht, rested, hidle]
  | wordAb | wordCd => simp [xferAlone_eq]

/-! ## The preset table (42_presets R179) -/

theorem tableInv_congr {s t : State} (h : TableInv s) (hcfg : t.cfg = s.cfg) (htable : t.table = s.table)
    (hphase : t.phase = s.phase) : TableInv t := by
  obtain ⟨hshape, huniform, hrange, hresting⟩ := h
  constructor <;> simpa only [tableShape, tableUniform, tableInRange, hcfg, htable, hphase]

/-- The defaults have every invariant of the table. -/
theorem tableInv_initRun (s : State) (r : Result) (v : U32) : TableInv (respond r v (initRun s)) := by
  rw [initRun_eq]
  refine ⟨fun _ => List.map_map, fun hwf _ => ?_, fun hwf _ => List.forall_mem_map.mpr hwf.inRange, .inl rfl⟩
  obtain ⟨level, hlevel⟩ := hwf.uniform
  exact ⟨level, List.forall_mem_map.mpr hlevel⟩

theorem current_of_mem_withCurrent {level : U8} {q : Preset} {t : ValveTarget}
    (ht : t ∈ (withCurrent level q).valve.toList) : t.current = level := by
  simp only [withCurrent, valveMapAll, ByValve.toList, List.mem_cons, List.not_mem_nil, or_false] at ht
  rcases ht with rfl | rfl | rfl | rfl | rfl | rfl | rfl | rfl <;> rfl

theorem inRange_withCurrent {level : U8} (hlevel : level ≤ 7#8) {q : Preset} (hq : q.inRange = true) :
    (withCurrent level q).inRange = true := by
  simp only [Preset.inRange, ByValve.toList, withCurrent, valveMapAll, List.all_cons, List.all_nil, Bool.and_eq_true,
    ValveTarget.inRange, decide_eq_true_eq] at hq ⊢
  tauto

/-- `set_current` writes one level throughout, and nothing but the currents (42_presets R177). -/
theorem tableInv_setCurrent {s : State} (h : TableInv s) {level : U32} (hlevel : level.toNat < 8) :
    TableInv (s.setTable (s.table.map fun x => (x.1, storeLevel level x.2))) := by
  refine ⟨fun hidle => ?_, fun _ _ => ?_, fun hwf hidle => ?_, h.resting⟩
  · exact List.map_map.trans (h.shape hidle)
  · exact ⟨_, List.forall_mem_map.mpr fun x _ t ht => current_of_mem_withCurrent ht⟩
  · have hle : ((level.extractLsb' 0 3).setWidth 8 : U8) ≤ 7#8 := by
      rw [le_seven_iff, storedLevel_toNat hlevel]
      omega
    exact List.forall_mem_map.mpr fun x hx => inRange_withCurrent hle (h.inRange hwf hidle x hx)

theorem tableInv_xferAlone {s : State} (h : TableInv s) (ic : IcId) (w : U16) : TableInv (xferAlone ic w s) := by
  rw [xferAlone_eq]
  exact tableInv_congr h rfl rfl rfl

theorem tableInv_ran {s t : State} {i : Instr} (h : TableInv s) (hran : Ran s i t) : TableInv t := by
  cases hran with
  | answered | togglePump | setPulseWidthMs | sleepDrivers => exact tableInv_congr h rfl rfl rfl
  | init | panicRecover => exact tableInv_initRun _ _ _
  | setCurrent level hidle hlevel => exact tableInv_congr (tableInv_setCurrent h hlevel) rfl rfl rfl
  | setMode code e hidle =>
    obtain ⟨p, c, es, n, -, ⟨r, -, ht⟩ | ht⟩ := setModeRun_cases e.mode s <;> rw [ht] <;>
      exact tableInv_congr h rfl rfl hidle.symm
  | valveOverride v direction hidle =>
    obtain ⟨p, c, es, n, -, ⟨r, -, ht⟩ | ht⟩ := overrideRun_cases v direction s <;> rw [ht] <;>
      exact tableInv_congr h rfl rfl hidle.symm
  | wordAb ic | wordCd ic => exact tableInv_xferAlone h ic _

/-- Settles O47: only `init()`, `panic_recover()` and `set_current` write the table (`tableInv_ran`). -/
theorem everyStepKeepsTheTable : Obligations.EveryStepKeepsTheTable := by
  refine ⟨fun s t h hstep => ?_, fun s t hexec => ?_⟩
  · exact step_keeps (fun s rest h => tableInv_congr h rfl rfl rfl) (fun s t i => tableInv_ran)
      (fun s ic w h => tableInv_xferAlone h ic w) h hstep
  · cases hexec
    exact tableInv_initRun s _ _

/-! ## The pump bit (10_state R40, 42_presets R176) -/

theorem pumpInBitZero_congr {s t : State} (h : pumpInBitZero s) (hcfg : t.cfg = s.cfg) (hmode : t.mode = s.mode)
    (hrelay : t.relay = s.relay) (hphase : t.phase = s.phase) : pumpInBitZero t := by
  unfold pumpInBitZero at h ⊢
  rwa [hcfg, hmode, hrelay, hphase]

/-- `RELAY_INIT` suits `Rest`. -/
def RelayInitSuits (c : Config) : Prop := modePaired c .rest = true → c.relayInit = (modeCode c .rest).getLsbD 0

theorem pumpInBitZero_initRun {s : State} (h : RelayInitSuits s.cfg) (r : Result) (v : U32) :
    pumpInBitZero (respond r v (initRun s)) := by
  rw [initRun_eq]
  exact fun _ => h

theorem pumpInBitZero_xferAlone {s : State} (h : pumpInBitZero s) (ic : IcId) (w : U16) :
    pumpInBitZero (xferAlone ic w s) := by
  rw [xferAlone_eq]
  exact h

/-- After `toggle_pump` a paired mode's code has the new relay as its bit 0, and an unpaired mode is kept. -/
theorem pump_of_modeWithPump {c : Config} (hvalid : c.Valid) {m : Mode} {b : Bool}
    (h : modePaired c (modeWithPump c m b) = true) : b = (modeCode c (modeWithPump c m b)).getLsbD 0 := by
  cases hpaired : modePaired c m with
  | false =>
    rw [modeWithPump_unpaired hpaired, hpaired] at h
    cases h
  | true => rw [(modeWithPump_paired hvalid hpaired b).2.1, (getLsbD_withBit0 _ b).1]

theorem pumpInBitZero_ran {s t : State} {i : Instr} (hvalid : s.cfg.Valid) (hinit : RelayInitSuits s.cfg)
    (h : pumpInBitZero s) (hran : Ran s i t) : pumpInBitZero t := by
  cases hran with
  | answered | setCurrent | setPulseWidthMs | sleepDrivers => exact pumpInBitZero_congr h rfl rfl rfl rfl
  | init => exact pumpInBitZero_initRun hinit _ _
  | panicRecover =>
    refine pumpInBitZero_initRun ?_ _ _
    rw [panicCycles_cfg, wakeBoth_eq]
    exact hinit
  | togglePump => exact fun _ hpaired => pump_of_modeWithPump hvalid hpaired
  | setMode code e hidle =>
    obtain ⟨p, c, es, n, -, ⟨r, -, ht⟩ | ht⟩ := setModeRun_cases e.mode s <;> rw [ht]
    · exact pumpInBitZero_congr h rfl rfl rfl hidle.symm
    · exact fun _ hpaired => if_pos hpaired
  | valveOverride v direction hidle =>
    obtain ⟨p, c, es, n, -, ⟨r, -, ht⟩ | ht⟩ := overrideRun_cases v direction s <;> rw [ht] <;>
      exact pumpInBitZero_congr h rfl rfl rfl hidle.symm
  | wordAb ic | wordCd ic => exact pumpInBitZero_xferAlone h ic _

/-- Settles O48: a committed `set_mode` drives the relay by `pumpFor`, `toggle_pump` moves mode and relay together, and
`init()` goes to `Rest` with `RELAY_INIT` (`pumpInBitZero_ran`). -/
theorem everyStepKeepsThePumpBit : Obligations.EveryStepKeepsThePumpBit := by
  intro s t hvalid hinit _ h hstep
  refine (step_keeps (P := fun s => s.cfg.Valid ∧ RelayInitSuits s.cfg ∧ pumpInBitZero s) (fun s rest h => h)
    (fun s t i h hran => ?_) (fun s ic w h => ?_) ⟨hvalid, hinit, h⟩ hstep).2.2
  · obtain ⟨hvalid, hinit, h⟩ := h
    rw [(ran_cfg hran).1]
    exact ⟨hvalid, hinit, pumpInBitZero_ran hvalid hinit h hran⟩
  · refine ⟨?_, ?_, pumpInBitZero_xferAlone h.2.2 ic w⟩ <;> rw [xferAlone_eq]
    · exact h.1
    · exact h.2.1

/-! ## A failed actuation (60_exceptions R235) -/

/-- Settles O43: a failed actuation is `rested`, which keeps the five items; a refused code is only answered. -/
theorem failureLeavesTheLogicalState : Obligations.FailureLeavesTheLogicalState := by
  intro i s t r v hi hidle hfailed hexec hresults hr
  have response {r' : Result} {v' : U32} (h : s.results ++ [.response r' v'] = s.results ++ [.response r v]) :
      r' = r := by
    cases List.append_cancel_left h
    rfl
  cases ran_of_exec hexec with
  | answered => exact ⟨rfl, rfl, rfl, rfl, rfl, hidle, hfailed⟩
  | setMode code e =>
    obtain ⟨p, c, es, n, -, ⟨r', -, ht⟩ | ht⟩ := setModeRun_cases e.mode s <;> rw [ht] at hresults ⊢
    · exact ⟨rfl, rfl, rfl, rfl, rfl, rfl, rfl⟩
    · exact absurd (response hresults).symm hr
  | valveOverride v direction =>
    obtain ⟨p, c, es, n, -, ⟨r', -, ht⟩ | ht⟩ := overrideRun_cases v direction s <;> rw [ht] at hresults ⊢
    · exact ⟨rfl, rfl, rfl, rfl, rfl, rfl, rfl⟩
    · exact absurd (response hresults).symm hr
  | init | togglePump | setCurrent | setPulseWidthMs | panicRecover | sleepDrivers | wordAb | wordCd =>
    obtain ⟨_, h⟩ | ⟨_, _, h⟩ := hi <;> cases h

/-! ## The bus and the bridges (41_driver R148, 60_exceptions R244) -/

theorem tailEvents_no_transfer (c : Config) : ∀ e ∈ tailEvents c, isSpi e = false := by
  simp [tailEvents, resetEvents, isSpi]

theorem initEvents_no_transfer (c : Config) : ∀ e ∈ initEvents c, isSpi e = false := by
  simp [initEvents, drvInitEvents, isSpi]

/-- Settles O49: the watch stops at a transfer alone, and only the actuations and `panic_recover` make any, between a wake and
an end without one (`run_isSome_of_inOrder`). -/
theorem commandsKeepTheBusInOrder : Obligations.CommandsKeepTheBusInOrder := by
  intro i s t hcommand h hexec
  have lines (hidle : s.phase = .idle) := h.lines hidle
  cases ran_of_exec hexec with
  | answered => exact ⟨[], (List.append_nil _).symm, rfl⟩
  | init =>
    exact ⟨initEvents s.cfg, by rw [initRun_eq]; rfl, run_isSome_of_no_transfer _ (initEvents_no_transfer _)⟩
  | togglePump => exact ⟨[.relay (!s.relay)], rfl, rfl⟩
  | setCurrent | setPulseWidthMs => exact ⟨[], (List.append_nil _).symm, rfl⟩
  | sleepDrivers => exact ⟨[.pin .icA .nSleep false, .pin .icB .nSleep false], rfl, rfl⟩
  | panicRecover hidle =>
    obtain ⟨hA, hB, hspi⟩ := lines hidle
    have hsteps := panicRecoverEndsInInit s hidle
    rw [exec_panicRecover hidle] at hsteps
    refine ⟨_, congrArg State.trace (Host.Outcome.next.inj hsteps), ?_⟩
    exact run_isSome_of_inOrder hA hB hspi (inOrder_panicItemEvents _ _ _) (initEvents_no_transfer _)
  | setMode code e hidle =>
    obtain ⟨hA, hB, hspi⟩ := lines hidle
    obtain ⟨p, c, es, n, hsound, ⟨r, -, ht⟩ | ht⟩ := setModeRun_cases e.mode s <;> rw [ht]
    · exact ⟨_, List.append_assoc _ _ _, run_isSome_of_inOrder hA hB hspi (hsound.inOrder h.committedWords)
        (tailEvents_no_transfer _)⟩
    · refine ⟨_, List.append_assoc _ _ _, ?_⟩
      rw [List.append_assoc (wakeEvents s.cfg)]
      exact run_isSome_of_inOrder hA hB hspi ((hsound.inOrder h.committedWords).append (inOrder_relay _))
        (tailEvents_no_transfer _)
  | valveOverride v direction hidle =>
    obtain ⟨hA, hB, hspi⟩ := lines hidle
    obtain ⟨p, c, es, n, hsound, ⟨r, -, ht⟩ | ht⟩ := overrideRun_cases v direction s <;> rw [ht] <;>
      exact ⟨_, List.append_assoc _ _ _, run_isSome_of_inOrder hA hB hspi (hsound.inOrder h.committedWords)
        (tailEvents_no_transfer _)⟩
  | wordAb | wordCd => cases hcommand

/-- An actuation that ran, of either kind, ends in the tail. -/
theorem exec_actuation_tail {s t : State} {i : Instr} (hidle : s.phase = .idle)
    (hi : (∃ code e, i = .setMode code ∧ entryOfCode s.cfg code = some e) ∨ ∃ v d, i = .valveOverride v d)
    (hexec : exec i s = .next t) : t.pin = pinsAsleep ∧ t.dev = devCleared := by
  rcases hi with ⟨code, e, rfl, he⟩ | ⟨v, d, rfl⟩
  · rw [exec_setMode_of_entry hidle he] at hexec
    cases hexec
    obtain ⟨p, c, es, n, -, ⟨r, -, ht⟩ | ht⟩ := setModeRun_cases e.mode s <;> rw [ht] <;> exact ⟨rfl, rfl⟩
  · rw [exec_valveOverride v d hidle] at hexec
    cases hexec
    obtain ⟨p, c, es, n, -, ⟨r, -, ht⟩ | ht⟩ := overrideRun_cases v d s <;> rw [ht] <;> exact ⟨rfl, rfl⟩

/-- Settles O50: the tail puts both ICs to sleep, which is off (`bridgeOutput_off`), and its resets clear them. -/
theorem bridgesOffAfterActuation : Obligations.BridgesOffAfterActuation := by
  intro s t i hidle hi hexec
  obtain ⟨hpin, hdev⟩ := exec_actuation_tail hidle hi hexec
  refine ⟨fun ic ch => bridgeOutput_off t ic ch (.inl ?_), hpin, fun ic => ?_⟩
  · rw [hpin]
    cases ic <;> rfl
  · rw [hdev]
    cases ic <;> exact ⟨rfl, rfl⟩

/-! ## The outside (00_scope R12, 20_memory R75) -/

theorem replayed_actuate {s t : State} (h : Replayed s t) (m : Mode) (q : Preset) (Fon Foff : FieldSets) :
    Replayed s (actuate m q Fon Foff t).2 := by
  have pulsed := (h.setPhase .pulse).both Fon
  have released (u : State) (hu : Replayed s u) := (hu.setPhase .release).both Foff
  simp only [actuate, releaseAndCommit]
  split
  · split
    · exact (((((released _ (pulsed.hold _)).setPhase .commit).driveRelay _).setMirror q).setMode m)
    · exact released _ (pulsed.hold _)
  · exact pulsed

theorem replayed_overridePulse {s t : State} (h : Replayed s t) (v : ValveId) (direction : Bool)
    (fon foff : ChannelField) : Replayed s (overridePulse v direction fon foff t).2 := by
  have pulsed := (h.setPhase .pulse).drvSetSingleChannel (valveLookup t.cfg v).1 (valveLookup t.cfg v).2 fon
  have released (u : State) (hu : Replayed s u) :=
    (hu.setPhase .release).drvSetSingleChannel (valveLookup u.cfg v).1 (valveLookup u.cfg v).2 foff
  simp only [overridePulse, overrideRelease]
  split
  · split
    · exact ((released _ (pulsed.hold _)).setPhase .commit).setMirror _
    · exact released _ (pulsed.hold _)
  · exact pulsed

theorem replayed_woken (s : State) : Replayed s (woken s) :=
  (((Replayed.refl s).setFailed false).wakeBoth).setPhase .validate

theorem replayed_setModeRun (m : Mode) (s : State) : Replayed s (setModeRun m s) := by
  rw [setModeRun_eq]
  split
  · exact (replayed_actuate (replayed_woken s) _ _ _ _).finish _
  · exact (replayed_woken s).finish _

theorem replayed_overrideRun (v : ValveId) (direction : Bool) (s : State) : Replayed s (overrideRun v direction s) := by
  rw [overrideRun_eq]
  split
  · exact (replayed_overridePulse (replayed_woken s) _ _ _ _).finish _
  · exact (replayed_woken s).finish _

theorem replayed_ran {s t : State} {i : Instr} (h : Ran s i t) : Replayed s t := by
  have start := Replayed.refl s
  cases h with
  | answered => exact start.answer _
  | init => exact start.initRun.answer _
  | setMode => exact replayed_setModeRun _ s
  | togglePump => exact start.event (.relay (!s.relay)) rfl rfl
  | setCurrent => exact (start.setTable _).answer _
  | setPulseWidthMs => exact start.of_eq rfl rfl
  | panicRecover => exact (start.wakeBoth.panicCycles _).initRun.answer _
  | sleepDrivers => exact ⟨[.pin .icA .nSleep false, .pin .icB .nSleep false], rfl, rfl⟩
  | valveOverride => exact replayed_overrideRun _ _ s
  | wordAb | wordCd => exact (start.xferWord _ _).answer _

/-- Settles O55: every instruction is made of operations that `Replayed` follows. -/
theorem theEventsDetermineTheOutside : Obligations.TheEventsDetermineTheOutside := by
  intro i s t hexec
  obtain ⟨events, htrace, hout⟩ := replayed_ran (ran_of_exec hexec)
  exact ⟨events, htrace, outside_eq.mp hout⟩

/-! ## Power-on (10_state R55, 70_reset_and_hazards R261) -/

/-- Settles O52: the state is given by its definition; the refusals are O40, and `init` completes in any state. -/
theorem powerOnState : Obligations.PowerOnState := by
  refine ⟨rfl, rfl, rfl, rfl, fun ic => ?_, fun i hcommand hinit => ?_, _, initResetsTheBlock State.reset,
    rfl, rfl, rfl, rfl⟩
  · cases ic <;> rfl
  · exact commandsRefusedOutsideIdle i State.reset hcommand hinit (by decide)

end Sys2Proof.Proofs.Invariant

end

/-! Proofs of the counts of `set_mode` and `panic_recover` (43_motion_control R194, R208), of `set_mode`'s independence of the
past (60_exceptions R236), and of what `panic_recover` leaves in the ICs. -/

section

namespace Sys2Proof.Proofs.Runs

open Machine Safety Laws Motion Device Actuation

/-! ## Counting the events of `set_mode` (43_motion_control R194) -/

theorem xferEvents_counts (strobeMs : U32) (ic : IcId) (w : U16) (ok : Bool) :
    (xferEvents strobeMs ic w ok).length = 6 ∧ (xferEvents strobeMs ic w ok).countP isSpi = 1 ∧
      (xferEvents strobeMs ic w ok).countP isDelay = 1 := ⟨rfl, rfl, rfl⟩

/-- The units of a list of words up to and with number `k`, which fails, or all of them. -/
theorem unitEvents_failed_counts (strobeMs : U32) (words : List (IcId × U16)) (k : Nat) :
    (unitEvents strobeMs words (List.replicate k true ++ [false])).length = 6 * min (k + 1) words.length ∧
      (unitEvents strobeMs words (List.replicate k true ++ [false])).countP isSpi = min (k + 1) words.length := by
  induction words generalizing k with
  | nil => cases k <;> exact ⟨rfl, rfl⟩
  | cons x xs ih =>
    cases k with
    | zero =>
      rw [List.length_cons, Nat.zero_add, min_eq_left (Nat.le_add_left 1 _)]
      exact ⟨rfl, rfl⟩
    | succ k =>
      obtain ⟨hlength, hcount⟩ := ih k
      obtain ⟨hunit, hunit', -⟩ := xferEvents_counts strobeMs x.1 x.2 true
      simp only [List.replicate_succ, List.cons_append, unitEvents, if_true, List.length_append, List.countP_append,
        hunit, hunit', hlength, hcount, List.length_cons]
      omega

theorem unitEvents_phase_failed_counts (strobeMs : U32) (F : FieldSets) (k : Nat) :
    (unitEvents strobeMs (phaseWords F) (List.replicate k true ++ [false])).length = 6 * min (k + 1) 4 ∧
      (unitEvents strobeMs (phaseWords F) (List.replicate k true ++ [false])).countP isSpi = min (k + 1) 4 :=
  unitEvents_failed_counts strobeMs (phaseWords F) k

theorem unitEvents_phase_ok_counts (strobeMs : U32) (F : FieldSets) :
    (unitEvents strobeMs (phaseWords F) [true, true, true, true]).length = 24 ∧
      (unitEvents strobeMs (phaseWords F) [true, true, true, true]).countP isSpi = 4 := ⟨rfl, rfl⟩

theorem wakeEvents_counts (c : Config) : (wakeEvents c).length = 3 ∧ (wakeEvents c).countP isSpi = 0 := ⟨rfl, rfl⟩

theorem tailEvents_counts (c : Config) : (tailEvents c).length = 18 ∧ (tailEvents c).countP isSpi = 0 := ⟨rfl, rfl⟩

theorem preset_inRange_eq_false_iff (q : Preset) :
    q.inRange = false ↔ ∃ v, (valveGet q.valve v).inRange = false := by
  have hlist : q.valve.toList = valveOrder.map (valveGet q.valve) := rfl
  simp [Preset.inRange, hlist, mem_valveOrder]

/-- `route` of a preset in range, for either enable. -/
theorem exists_route {c : Config} {q : Preset} (h : q.inRange = true) (enable : Bool) :
    ∃ F, route c q enable = some F := by
  refine Option.ne_none_iff_exists'.mp fun hnone => ?_
  rw [Presets.route_eq_none_iff, ← preset_inRange_eq_false_iff, h] at hnone
  cases hnone

theorem route_eq_none_of_not_inRange {c : Config} {q : Preset} (h : q.inRange = false) (enable : Bool) :
    route c q enable = none := by
  rwa [Presets.route_eq_none_iff, ← preset_inRange_eq_false_iff]

/-- Settles O30: the traces are those of `setModeFollowsItsSteps`; a failing phase has the units up to the failing one. -/
theorem setModeTraceCounts : Obligations.SetModeTraceCounts := by
  intro s t code e hidle he hexec
  obtain ⟨hinvalid, hrouted⟩ := setModeFollowsItsSteps s code e hidle he
  obtain ⟨hwake, hwake'⟩ := wakeEvents_counts s.cfg
  obtain ⟨htail, htail'⟩ := tailEvents_counts s.cfg
  refine ⟨fun hrange => ?_, fun hrange => ?_⟩
  · obtain ⟨Fon, hon⟩ := exists_route (c := s.cfg) hrange true
    obtain ⟨Foff, hoff⟩ := exists_route (c := s.cfg) hrange false
    obtain ⟨hok, hfailed⟩ := hrouted Fon Foff hon hoff
    refine ⟨fun hanswers => ?_, fun k hpos hle hanswers => ?_⟩
    · obtain ⟨dev, ht⟩ := hok hanswers
      obtain ⟨hphase, hphase'⟩ := unitEvents_phase_ok_counts s.cfg.strobeDelayMs Fon
      obtain ⟨hphase2, hphase2'⟩ := unitEvents_phase_ok_counts s.cfg.strobeDelayMs Foff
      cases hexec.symm.trans ht
      simp only [List.length_append, List.countP_append, hwake, hwake', htail, htail', hphase, hphase', hphase2,
        hphase2']
      exact ⟨rfl, rfl⟩
    · obtain ⟨j, rfl⟩ := Nat.exists_eq_add_of_le' hpos
      obtain ⟨dev, ht⟩ := hfailed j hle hanswers
      obtain ⟨hpulse, hpulse'⟩ := unitEvents_phase_failed_counts s.cfg.strobeDelayMs Fon (min j 4)
      obtain ⟨hrelease, hrelease'⟩ := unitEvents_phase_failed_counts s.cfg.strobeDelayMs Foff (j - 4)
      cases hexec.symm.trans ht
      simp only [List.length_append, List.countP_append, hwake, hwake', htail, htail', hpulse, hpulse']
      split
      next hlt =>
        rw [if_neg (by omega), List.length_nil, List.countP_nil]
        omega
      next hge =>
        rw [if_pos (by omega), List.length_cons, List.countP_cons_of_neg Bool.false_ne_true, hrelease, hrelease']
        omega
  · obtain ⟨dev, ht⟩ := hinvalid (route_eq_none_of_not_inRange hrange true)
    cases hexec.symm.trans ht
    constructor
    · rw [List.length_append, List.length_append, hwake, htail]
    · rw [List.countP_append, List.countP_append, hwake', htail', Nat.add_zero]

/-! ## Independence of the past (60_exceptions R236) -/

/-- Settles O44: in each outcome of `setModeFollowsItsSteps` the events, the response and, on success, all that is compared
are read off what the two blocks agree on; the device is the tail's (`exec_actuation_tail`). -/
theorem setModeDoesNotDependOnThePast : Obligations.SetModeDoesNotDependOnThePast := by
  intro s s' code hidle hidle' hcfg htable hwidth hlisted hdraws
  cases he : entryOfCode s.cfg code with
  | none =>
    have he' : entryOfCode s'.cfg code = none := by rw [hcfg, he]
    exact ⟨_, _, [], .invalidParameter, Encoding.exec_setMode_of_no_entry he, Encoding.exec_setMode_of_no_entry he',
      (List.append_nil _).symm, (List.append_nil _).symm, rfl, rfl, fun h => by cases h⟩
  | some e =>
    have he' : entryOfCode s'.cfg code = some e := by rw [hcfg, he]
    have hdev {t t' : State} (ht : exec (.setMode code) s = .next t) (ht' : exec (.setMode code) s' = .next t') :
        t'.dev = t.dev := by
      rw [(Invariant.exec_actuation_tail hidle (.inl ⟨code, e, rfl, he⟩) ht).2,
        (Invariant.exec_actuation_tail hidle' (.inl ⟨code, e, rfl, he'⟩) ht').2]
    have hanswers (n : Nat) : nextAnswers s' n = nextAnswers s n := nextAnswers_congr hlisted hdraws n
    obtain ⟨hinvalid, hrouted⟩ := setModeFollowsItsSteps s code e hidle he
    obtain ⟨hinvalid', hrouted'⟩ := setModeFollowsItsSteps s' code e hidle' he'
    simp only [hcfg, htable, hwidth, hanswers, List.append_assoc] at hinvalid hinvalid' hrouted hrouted'
    cases hon : route s.cfg (tableGet s.table e.mode) true with
    | none =>
      obtain ⟨dev, ht⟩ := hinvalid hon
      obtain ⟨dev', ht'⟩ := hinvalid' hon
      exact ⟨_, _, _, _, ht, ht', rfl, rfl, rfl, rfl, fun h => by cases h⟩
    | some Fon =>
      obtain ⟨Foff, hoff⟩ : ∃ Foff, route s.cfg (tableGet s.table e.mode) false = some Foff := by
        refine Option.ne_none_iff_exists'.mp fun hnone => ?_
        rw [← route_none_iff, hon] at hnone
        cases hnone
      obtain ⟨hok, hfailed⟩ := hrouted Fon Foff hon hoff
      obtain ⟨hok', hfailed'⟩ := hrouted' Fon Foff hon hoff
      rcases nextAnswers_cases s 8 with hall | ⟨k, hk, hfirst⟩
      · obtain ⟨dev, ht⟩ := hok hall
        obtain ⟨dev', ht'⟩ := hok' hall
        exact ⟨_, _, _, _, ht, ht', rfl, rfl, rfl, rfl, fun _ => ⟨rfl, rfl, rfl, rfl, rfl, rfl, rfl, hdev ht ht'⟩⟩
      · obtain ⟨dev, ht⟩ := hfailed k hk hfirst
        obtain ⟨dev', ht'⟩ := hfailed' k hk hfirst
        exact ⟨_, _, _, _, ht, ht', rfl, rfl, rfl, rfl, fun h => absurd h (failureOf_ne_ok k)⟩

/-! ## Counting the events of `panic_recover` (43_motion_control R208) -/

/-- Whether a piece of the loop is an all-channel call. -/
def isCall : PanicItem → Bool
  | .call _ _ => true
  | .hold _ => false

/-- Whether a piece of the loop is a hold. -/
def isHold : PanicItem → Bool
  | .call _ _ => false
  | .hold _ => true

/-- When every transfer succeeds a call is two units, each with one transfer and one delay, and a hold is one delay. -/
theorem panicItemEvents_ok_counts (strobeMs : U32) (items : List PanicItem) :
    let es := panicItemEvents strobeMs items (List.replicate (2 * items.countP isCall) true)
    es.length = 12 * items.countP isCall + items.countP isHold ∧
      es.countP isSpi = 2 * items.countP isCall ∧
      es.countP isDelay = 2 * items.countP isCall + items.countP isHold := by
  induction items with
  | nil => exact ⟨rfl, rfl, rfl⟩
  | cons x xs ih =>
    obtain ⟨hlength, hspi, hdelay⟩ := ih
    cases x with
    | hold ms =>
      simp only [List.countP_cons, isCall, isHold, panicItemEvents, Bool.false_eq_true, if_false, if_true, Nat.add_zero,
        List.length_cons, hlength, hspi, hdelay, isSpi, isDelay, true_and]
      omega
    | call ic f =>
      simp only [List.countP_cons, isCall, isHold, Bool.false_eq_true, if_false, if_true, Nat.add_zero, Nat.mul_add,
        Nat.mul_one, List.replicate_succ, panicItemEvents, List.length_append, List.countP_append, hlength, hspi, hdelay,
        xferEvents_counts]
      omega

/-- Two cycles per width, each of four calls and a hold. -/
theorem panicItems_counts (c : Config) :
    (panicItems c).countP isCall = 8 * c.panicWidths.length ∧ (panicItems c).countP isHold = 2 * c.panicWidths.length := by
  rw [panicItems_eq]
  generalize c.panicWidths = widths
  induction widths with
  | nil => exact ⟨rfl, rfl⟩
  | cons w ws ih =>
    obtain ⟨hcall, hhold⟩ := ih
    simp only [List.flatMap_cons, List.countP_append, hcall, hhold, List.length_cons,
      show (panicWidthItems c w).countP isCall = 8 from rfl, show (panicWidthItems c w).countP isHold = 2 from rfl]
    omega

/-- Settles O38: under a valid configuration there are 24 widths, so 192 calls and 48 holds. -/
theorem panicRecoverCounts : Obligations.PanicRecoverCounts := by
  intro s hidle hvalid hanswers
  obtain ⟨hcalls, hholds⟩ := panicItems_counts s.cfg
  rw [hvalid.panicCount] at hcalls hholds
  have hcounts := panicItemEvents_ok_counts s.cfg.strobeDelayMs (panicItems s.cfg)
  simp only [hcalls, hholds] at hcounts
  obtain ⟨hlength, hspi, hdelay⟩ := hcounts
  refine ⟨_, _, panicRecoverEndsInInit s hidle, rfl, ?_⟩
  rw [hvalid.panicCount, hanswers]
  simp only [panicEvents, List.length_append, List.countP_append, hlength, hspi, hdelay]
  exact ⟨rfl, rfl, rfl⟩

/-! ## What `panic_recover` leaves in the ICs (43_motion_control R207, 20_memory R75) -/

/-- Both ICs listen, and the next `n` transfers succeed. -/
structure Going (s : State) (n : Nat) : Prop where
  listens : ∀ ic, Listens s ic
  answers : nextAnswers s n = List.replicate n true

section Going

variable {s : State} {n : Nat}

theorem Going.setPhase (h : Going s n) (x : Phase) : Going (s.setPhase x) n :=
  ⟨h.listens, (nextAnswers_setPhase s x n).trans h.answers⟩

theorem Going.hold (h : Going s n) (ms : U32) : Going (hold ms s) n := by
  rw [hold_eq]
  exact ⟨h.listens, (nextAnswers_congr (by rfl) (by rfl) n).trans h.answers⟩

theorem Going.call (h : Going s (2 + n)) (ic : IcId) (f : ByChannel ChannelField) :
    (drvSetAllChannels ic f s).1 = .ok ∧ Going (drvSetAllChannels ic f s).2 n := by
  have hanswers : nextAnswers s (2 + n) = [true, true] ++ List.replicate n true := by
    rw [h.answers, List.replicate_add]
    rfl
  obtain ⟨t, ht, hact⟩ := drvSetAllChannels_actuated_of_AB_ok ic f (nextAnswers_eq_of_add hanswers rfl)
  have hlistens (ic' : IcId) := (h.listens ic').drvSetAllChannels ic f
  rw [ht] at hlistens ⊢
  exact ⟨rfl, hlistens, hact.nextAnswers_eq hanswers rfl⟩

theorem Going.panicPhase (h : Going s (2 + (2 + n))) (F : FieldSets) :
    Going (panicPhase F s) n ∧ ∀ ic, icGet (panicPhase F s).dev ic = holding (icGet F ic) := by
  obtain ⟨hA, hafterA⟩ := h.call .icA F.icA
  obtain ⟨hB, hafterB⟩ := hafterA.call .icB F.icB
  exact ⟨hafterB, fun ic => (holding_of_two_calls h.listens hA hB ic).2⟩

/-- A cycle ends with a release, whose words both ICs then hold. -/
theorem Going.panicCycle (h : Going s (8 + n)) (width : U32) (direction : Bool) :
    Going (panicCycle width direction s) n ∧
      ∀ ic, icGet (panicCycle width direction s).dev ic =
        holding (icGet (uniformSets (panicField s.cfg direction false)) ic) := by
  have hpulse : Going (s.setPhase .pulse) (2 + (2 + (4 + n))) := by
    rw [show 2 + (2 + (4 + n)) = 8 + n by omega]
    exact h.setPhase .pulse
  have hrelease := ((hpulse.panicPhase (uniformSets (panicField s.cfg direction true))).1.hold width).setPhase .release
  rw [show 4 + n = 2 + (2 + n) by omega] at hrelease
  have hcycle := hrelease.panicPhase (uniformSets (panicField s.cfg direction false))
  have hcfg : (Machine.hold width (Machine.panicPhase (uniformSets (panicField s.cfg direction true))
      (s.setPhase .pulse))).cfg = s.cfg := by rw [hold_eq]; exact panicPhase_cfg _ _
  simp only [Machine.panicCycle, hcfg]
  exact hcycle

theorem Going.panicCycles {widths : List U32} (h : Going s (16 * widths.length + n)) : Going (panicCycles widths s) n := by
  induction widths generalizing s with
  | nil => simpa [Machine.panicCycles] using h
  | cons width widths ih =>
    rw [List.length_cons, show 16 * (widths.length + 1) + n = 8 + (8 + (16 * widths.length + n)) by omega] at h
    exact ih ((h.panicCycle width true).1.panicCycle width false).1

end Going

/-- After the last width both ICs hold the words of its reverse release. -/
theorem panicCycles_holding {s : State} {widths : List U32} (hwidths : widths ≠ [])
    (h : Going s (16 * widths.length)) (ic : IcId) :
    icGet (panicCycles widths s).dev ic = holding (icGet (uniformSets (panicField s.cfg false false)) ic) := by
  obtain ⟨front, last, rfl⟩ := (List.eq_nil_or_concat' widths).resolve_left hwidths
  have hfront : Going (panicCycles front s) (8 + (8 + 0)) := by
    refine Going.panicCycles ?_
    rw [List.length_append, List.length_singleton, Nat.mul_add] at h
    exact h
  have hlast := ((hfront.panicCycle last true).1.panicCycle last false).2 ic
  rw [panicCycle_cfg, panicCycles_cfg] at hlast
  rw [panicCycles, List.foldl_append]
  exact hlast

/-- The wake makes two ICs at rest listen. -/
theorem listens_wakeBoth {s : State} (hA : linesRest s.pin.icA) (hB : linesRest s.pin.icB) (hspi : s.spiOn = true)
    (ic : IcId) : Listens (wakeBoth s) ic := by
  rw [wakeBoth_eq]
  cases ic
  · exact ⟨rfl, hA.2.2, hA.2.1, hspi⟩
  · exact ⟨rfl, hB.2.2, hB.2.1, hspi⟩

/-- Settles O54: the loop ends with a release both ICs hold (`panicCycles_holding`), and `init()` touches no register. -/
theorem panicRecoverLeavesTheBridgesOff : Obligations.PanicRecoverLeavesTheBridgesOff := by
  intro s h hidle hvalid hanswers
  obtain ⟨hA, hB, hspi⟩ := h.lines hidle
  have hgoing : Going (wakeBoth s) (16 * s.cfg.panicWidths.length) := by
    rw [hvalid.panicCount]
    exact ⟨listens_wakeBoth hA hB hspi, ((wakeBoth_actuated s).nextAnswers_of_no_draw _).trans hanswers⟩
  have hne : s.cfg.panicWidths ≠ [] := fun hnil => by
    have hcount := hvalid.panicCount
    rw [hnil] at hcount
    cases hcount
  have hdev := panicCycles_holding hne hgoing
  rw [(wakeBoth_actuated s).cfg] at hdev
  refine ⟨_, exec_panicRecover hidle, ?_⟩
  rw [initRun_eq]
  refine ⟨fun ic => ?_, fun ic ch => ?_, rfl⟩
  · refine (hdev ic).trans ?_
    cases ic <;> rfl
  · refine (bridgeOutput_of_holding (f := icGet (uniformSets (panicField s.cfg false false)) ic) ?_ ?_ ch).trans ?_
    · cases ic <;> exact ⟨rfl, rfl, rfl, rfl⟩
    · exact hdev ic
    · cases ic <;> cases ch <;> rfl

end Sys2Proof.Proofs.Runs

end
